-- ==== Sys2Proof/Word.lean ====
section
/-! DEFINITION. The words of the hardware: one name per width that spec/10_state.md rule R20 and
spec/30_encoding.md rule R80 give. Every quantity is an unsigned bit vector (42_address_ack.md rule R168). -/

namespace Sys2Proof

/-- The sample word `W[3:0] = {nd, nc, od, oc}` of one tick (30_encoding.md rule R80). -/
abbrev SampleWord := BitVec 4

/-- A byte, bit 7 the first to arrive (20_memory.md rule R52). -/
abbrev Byte := BitVec 8

/-- A 7-bit bus address (20_memory.md rule R61). -/
abbrev Address := BitVec 7

/-- The arrival index of the bit captured last, 0 to 7 (10_state.md rule R24). -/
abbrev BitIndex := BitVec 3

/-- The byte count: `CNT_W` = 8 bits (00_scope.md rule R7, decision D8; log 9). -/
abbrev ByteCount := BitVec 8

end Sys2Proof
end

