-- ==== Sys2Proof/Config.lean ====
section
/-! DEFINITION. What is fixed per decoder and what the spec leaves open: the parameters of 00_scope.md rule R7 and the
free values of 93_implementation_defined.md U5, U6. An `opaque` constant has no body: no proof can see its value. -/

namespace Sys2Proof

/-- The parameter `SAMPLE_SOURCE` (00_scope.md rule R7, 30_encoding.md rule R82). -/
inductive SampleSource where
  /-- all four samples of a tick are inputs; the value this hardware takes (decision D3) -/
  | external
  /-- the optional front end: the old samples come from two registers (rule R82) -/
  | internalRegs
  deriving DecidableEq, Repr

/-- `ADDR`, OPEN in rule R7: the argument of the construction from which `State.reset` results (log 5). -/
opaque Config.address : Address

/-- FREE VALUE (U6, 20_memory.md rule R69): the sample word the environment gives in tick `n` when the state lists no
presented tick (log 2). -/
opaque Config.freeWord : Nat → SampleWord

/-- FREE VALUE (U5, 30_encoding.md rule R95): the provider's answer in tick `n` when the tick carries none (log 3). -/
opaque Config.freeAccept : Nat → Bool

/-- `SAMPLE_SOURCE` of this hardware (00_scope.md rule R7, decision D3). -/
def Config.sampleSource : SampleSource := .external

end Sys2Proof
end

