-- ==== Sys2Proof/Syntax.lean ====
section
/-! DEFINITION. The nine tick operations, one constructor per row of spec/opcode_table.json. An operation carries the bits
of its sample word that its row leaves open: `nd` = W[3], the operand; `od` = W[1], which the spec says is ignored; for
IDLE, whose row has mask 0, the whole word. -/

namespace Sys2Proof

/-- A tick operation (00_scope.md rule R6: the "instruction" of this hardware). -/
inductive Instr where
  /-- START (40_conditions.md rule R110) -/
  | start
  /-- STOP (40_conditions.md rule R112) -/
  | stop
  /-- BIT_FIRST (41_byte_assembly.md rule R130) -/
  | bitFirst (nd od : Bool)
  /-- BIT_MID (41_byte_assembly.md rule R132) -/
  | bitMid (nd od : Bool)
  /-- BIT_LAST.ADDR_ACK (42_address_ack.md rule R151) -/
  | bitLastAddrAck (nd od : Bool)
  /-- BIT_LAST.ADDR_IGNORE (42_address_ack.md rule R152) -/
  | bitLastAddrIgnore (nd od : Bool)
  /-- BIT_LAST.DATA_ACK (42_address_ack.md rule R153) -/
  | bitLastDataAck (nd od : Bool)
  /-- BIT_LAST.DATA_NACK (42_address_ack.md rule R154) -/
  | bitLastDataNack (nd od : Bool)
  /-- IDLE (43_idle.md rule R180) -/
  | idle (w : SampleWord)
  deriving DecidableEq, Repr

/-- One row of the opcode table: it matches a word `w` when `w &&& mask = pattern`; rows are tested in ascending
`priority` (30_encoding.md, opening paragraph, and rule R90). -/
structure OpcodeRow where
  priority : Nat
  mask : SampleWord
  pattern : SampleWord
  deriving DecidableEq, Repr

end Sys2Proof
end

