-- ==== Sys2Proof/Machine/State.lean ====
section
/-! DEFINITION. The state: the nine elements of 10_state.md rule R20, the two constants of the decoder, the two registers
of the optional front end (30_encoding.md rule R82), and the model's own lists of inputs and outputs (log 1, log 6). -/

namespace Sys2Proof.Machine

/-- The Protocol State `st` (10_state.md rule R21). There is no fourth value (decision D16, rule R93). -/
inductive ProtocolState where
  | stopped
  | started
  | receivingByte
  deriving DecidableEq, Repr

/-- The Transfer Direction `dir` (10_state.md rule R22). -/
inductive Direction where
  | write
  | read
  deriving DecidableEq, Repr

/-- What a state-change notification carries (60_exceptions.md rule R202, decision D11). -/
inductive NotifyKind where
  | started
  | stopped
  deriving DecidableEq, Repr

/-- The level a `Drive` command asks for (00_scope.md rule R10). -/
inductive Level where
  | low
  | high
  deriving DecidableEq, Repr

/-- The events of 00_scope.md rule R10. `Trace` is left out, as rule R205 advises (log 24). -/
inductive Event where
  | notify (kind : NotifyKind)
  | writeByte (b : Byte)
  | readByte (b : Byte)
  | drive (level : Level)
  deriving DecidableEq, Repr

/-- One tick as the environment presents it: the sample word (30_encoding.md rule R80), the provider's answer
(rule R95; `none` where the stimulus gives none, rule R96), and whether a provider call made in this tick returns
(60_exceptions.md rule R208). -/
structure Tick where
  word : SampleWord
  answer : Option Bool
  returns : Bool
  deriving DecidableEq, Repr

/-- What can be wrong with a provider at construction (60_exceptions.md rule R191; `addressTooWide` is U11). -/
inductive ConfigProblem where
  | noAddress
  | addressTooWide
  | noNotify
  | noWriteByte
  | noReadByte
  deriving DecidableEq, Repr

structure State where
  /-- Protocol State (rule R21) -/
  st : ProtocolState
  /-- Transfer Direction (rule R22) -/
  dir : Direction
  /-- the byte under construction (rule R23) -/
  acc : Byte
  /-- arrival index of the bit captured last (rule R24) -/
  bitIndex : BitIndex
  /-- complete bytes since the last START (rule R25) -/
  byteCount : ByteCount
  /-- just-started (rule R26) -/
  jStarted : Bool
  /-- just-stopped (rule R26) -/
  jStopped : Bool
  /-- just-acknowledged (rule R26) -/
  jAcked : Bool
  /-- the open-drain driver's latch, true = pulled low (rule R27) -/
  sdaPull : Bool
  /-- the constant ADDR (rule R28) -/
  addr : Address
  /-- the parameter SAMPLE_SOURCE (00_scope.md rule R7) -/
  sampleSource : SampleSource
  /-- front end: the data level of the tick before (30_encoding.md rule R82) -/
  prevData : Bool
  /-- front end: the clock level of the tick before (30_encoding.md rule R82) -/
  prevClock : Bool
  /-- MODEL's own: ticks already presented by the environment, next first (log 1) -/
  ticks : List Tick
  /-- MODEL's own: how many ticks have run; free values are drawn at it (log 2, log 3) -/
  tickNo : Nat
  /-- MODEL's own: every event emitted so far, oldest first (log 6) -/
  events : List Event
  deriving DecidableEq, Repr

/-- Why the machine stops. -/
inductive Fault where
  /-- Raised by `construct` only, never by `step`: the provider lacks a capability (60_exceptions.md rule R191, "fatal,
  detected at construction"). Safe: the hardware refuses to exist there too. -/
  | configurationError (problems : List ConfigProblem)
  /-- Raised by `step` when an operation calls the provider in a tick whose call does not return (U12: treatment `stuck`).
  Safe: the spec gives no step there (log 4). -/
  | providerCallDidNotReturn
  deriving DecidableEq, Repr

/-- Why an instruction has no meaning here. -/
inductive Refusal where
  /-- Raised by `exec`'s arm of an instruction with no meaning yet; no arm of this model does. Safe. -/
  | notModelled (mnemonic : String)
  deriving DecidableEq, Repr

/-- A decoder fresh from construction with address `addr` (10_state.md rule R34, 70_reset_and_hazards.md rule R220;
registers of the front end: 30_encoding.md rule R82). -/
def State.fresh (addr : Address) (source : SampleSource) : State where
  st := .stopped
  dir := .write
  acc := 0
  bitIndex := 0
  byteCount := 0
  jStarted := false
  jStopped := false
  jAcked := false
  sdaPull := false
  addr := addr
  sampleSource := source
  prevData := true
  prevClock := true
  ticks := []
  tickNo := 0
  events := []

/-- The machine right after reset (10_state.md rule R34): `ADDR` is the construction argument, left open (log 5). -/
def State.reset : State := State.fresh Config.address Config.sampleSource

end Sys2Proof.Machine
end

