-- ==== Sys2Proof/Machine/Flags.lean ====
section
/-! DEFINITION. The three suppression flags (10_state.md rule R26): the one disjunction the guards read, and the one
operation that clears them. -/

namespace Sys2Proof.Machine

/-- `anyFlag = jStarted or jStopped or jAcked` (30_encoding.md rule R90). -/
def State.anyFlag (s : State) : Bool := s.jStarted || s.jStopped || s.jAcked

/-- All three flags to 0, together (10_state.md rule R26, 43_idle.md rule R180). -/
def State.clearFlags (s : State) : State :=
  { s with jStarted := false, jStopped := false, jAcked := false }

end Sys2Proof.Machine
end

