-- ==== Sys2Proof/Machine/Operands.lean ====
section
/-! DEFINITION. Operands and the arithmetic of the core: bit insertion and the byte count (42_address_ack.md rule R168),
the address framing helper (rules R160, R161), and the numeric encodings of rule R97 and decision D16. -/

namespace Sys2Proof.Machine

/-- `acc[p] <- b` (42_address_ack.md rule R168 a). -/
def insertBit (acc : Byte) (p : Nat) (b : Bool) : Byte :=
  (acc &&& ~~~(1#8 <<< p)) ||| ((BitVec.ofBool b).setWidth 8 <<< p)

/-- `{nd, 0b0000000}` (41_byte_assembly.md rule R130). -/
def firstBitByte (nd : Bool) : Byte := BitVec.ofBool nd ++ 0#7

/-- `min(n + 1, 2^CNT_W - 1)` (42_address_ack.md rules R153, R168 e; decision D8). -/
def countUp (n : ByteCount) : ByteCount := if n = BitVec.allOnes 8 then n else n + 1

/-- `write_frame(A) = {A, 0}` (rule R160). -/
def writeFrame (a : Address) : Byte := a ++ 0#1

/-- `read_frame(A) = {A, 1}` (rule R160). -/
def readFrame (a : Address) : Byte := a ++ 1#1

/-- `extract_address(B) = B[7:1]` (rule R161). -/
def extractAddress (b : Byte) : Address := b.extractLsb' 1 7

/-- The direction a low bit stands for: 0 = write, 1 = read (30_encoding.md rule R84). -/
def Direction.ofBit (rw : Bool) : Direction := if rw then .read else .write

/-- The bit of a direction (decision D16). -/
def Direction.toBit : Direction → Bool
  | .write => false
  | .read => true

/-- `extract_direction(B) = B[0]` (rule R161). -/
def extractDirection (b : Byte) : Direction := .ofBit (b.getLsbD 0)

/-- `matches(B, ADDR)` (rule R161). -/
def matchesAddress (b : Byte) (addr : Address) : Bool := extractAddress b == addr

/-- The hardware encoding of `st`; value 3 is unused (10_state.md rule R21, decision D16). -/
def ProtocolState.code : ProtocolState → BitVec 2
  | .stopped => 0
  | .started => 1
  | .receivingByte => 2

/-- `notify_kind`: 0 = Started, 1 = Stopped (30_encoding.md rule R97). -/
def NotifyKind.code : NotifyKind → Bool
  | .started => false
  | .stopped => true

/-- `drive_level`: 0 = Drive(Low), 1 = Drive(High) (30_encoding.md rule R97). -/
def Level.code : Level → Bool
  | .low => false
  | .high => true

end Sys2Proof.Machine
end

