-- ==== Sys2Proof/Decode.lean ====
section
/-! DEFINITION. Decode (30_encoding.md): the fields of the sample word (rule R80), the edge detector (rule R81), the
priority-ordered guards (rule R90) with the completion dispatch (42_address_ack.md rule R150), the rows of the opcode
table, and the encoder. Decoding reads the state at tick entry: the same word selects different operations in different
states (rule R92). It is total: no sample word is illegal (rule R93). -/

namespace Sys2Proof

/-- The new data level, `W[3]` (rule R80). -/
def SampleWord.nd (w : SampleWord) : Bool := w.getLsbD 3
/-- The new clock level, `W[2]` (rule R80). -/
def SampleWord.nc (w : SampleWord) : Bool := w.getLsbD 2
/-- The old data level, `W[1]` (rule R80). -/
def SampleWord.od (w : SampleWord) : Bool := w.getLsbD 1
/-- The old clock level, `W[0]` (rule R80). -/
def SampleWord.oc (w : SampleWord) : Bool := w.getLsbD 0

/-- `{nd, nc, od, oc}` (rule R80). -/
def SampleWord.pack (nd nc od oc : Bool) : SampleWord :=
  BitVec.ofBool nd ++ BitVec.ofBool nc ++ BitVec.ofBool od ++ BitVec.ofBool oc

/-- `startEdge = oc and nc and od and !nd` (rule R81). -/
def SampleWord.startEdge (w : SampleWord) : Bool := w.oc && w.nc && w.od && !w.nd
/-- `stopEdge = oc and nc and !od and nd` (rule R81). -/
def SampleWord.stopEdge (w : SampleWord) : Bool := w.oc && w.nc && !w.od && w.nd
/-- `clkFall = oc and !nc` (rule R81). -/
def SampleWord.clkFall (w : SampleWord) : Bool := w.oc && !w.nc
/-- `clkRise = !oc and nc` (rule R81). -/
def SampleWord.clkRise (w : SampleWord) : Bool := !w.oc && w.nc

namespace Machine

/-- Guard of START (rule R90, priority 1). -/
def State.guardStart (s : State) (w : SampleWord) : Bool :=
  w.startEdge &&
    (((s.st == .stopped || s.st == .started) && !s.jStopped) || s.st == .receivingByte)

/-- Guard of STOP (rule R90, priority 2). -/
def State.guardStop (s : State) (w : SampleWord) : Bool :=
  w.stopEdge && (s.st == .started || s.st == .receivingByte)

/-- Guard of BIT_FIRST (rule R90, priority 3). -/
def State.guardBitFirst (s : State) (w : SampleWord) : Bool :=
  s.st == .started && !s.anyFlag && w.clkFall

/-- Guard of BIT_MID (rule R90, priority 4). -/
def State.guardBitMid (s : State) (w : SampleWord) : Bool :=
  s.st == .receivingByte && w.clkRise && decide (s.bitIndex ≤ 5#3)

/-- Guard of BIT_LAST (rule R90, priority 5; conflict C2, log 11). -/
def State.guardBitLast (s : State) (w : SampleWord) : Bool :=
  s.st == .receivingByte && w.clkRise && s.bitIndex == 6#3

/-- `complete(acc)`: which outcome a BIT_LAST has, after `acc[0] <- nd` (42_address_ack.md rule R150). -/
def State.completion (s : State) (nd od accept : Bool) : Instr :=
  if s.byteCount = 0#8 then
    if matchesAddress (insertBit s.acc 0 nd) s.addr then .bitLastAddrAck nd od
    else .bitLastAddrIgnore nd od
  else if accept then .bitLastDataAck nd od
  else .bitLastDataNack nd od

/-- The decode of rule R90: the first guard that holds selects the operation. -/
def State.decode (s : State) (w : SampleWord) (accept : Bool) : Instr :=
  if s.guardStart w then .start
  else if s.guardStop w then .stop
  else if s.guardBitFirst w then .bitFirst w.nd w.od
  else if s.guardBitMid w then .bitMid w.nd w.od
  else if s.guardBitLast w then s.completion w.nd w.od accept
  else .idle w

end Machine

open Machine

/-- The row of spec/opcode_table.json an operation stands for. -/
def Instr.row : Instr → OpcodeRow
  | .start => ⟨1, 0b1111, 0b0111⟩
  | .stop => ⟨2, 0b1111, 0b1101⟩
  | .bitFirst _ _ => ⟨3, 0b0101, 0b0001⟩
  | .bitMid _ _ => ⟨4, 0b0101, 0b0100⟩
  | .bitLastAddrAck _ _ => ⟨5, 0b0101, 0b0100⟩
  | .bitLastAddrIgnore _ _ => ⟨5, 0b0101, 0b0100⟩
  | .bitLastDataAck _ _ => ⟨5, 0b0101, 0b0100⟩
  | .bitLastDataNack _ _ => ⟨5, 0b0101, 0b0100⟩
  | .idle _ => ⟨6, 0b0000, 0b0000⟩

/-- The word fits the row: `(W & mask) == match`. -/
def OpcodeRow.fits (r : OpcodeRow) (w : SampleWord) : Bool := w &&& r.mask == r.pattern

/-- The sample word of an operation (the encodings of rules R110, R112, R130, R132, R134, R180). -/
def Instr.encode : Instr → SampleWord
  | .start => 0x7
  | .stop => 0xD
  | .bitFirst nd od => .pack nd false od true
  | .bitMid nd od => .pack nd true od false
  | .bitLastAddrAck nd od => .pack nd true od false
  | .bitLastAddrIgnore nd od => .pack nd true od false
  | .bitLastDataAck nd od => .pack nd true od false
  | .bitLastDataNack nd od => .pack nd true od false
  | .idle w => w

/-- The operation's `state_guard` and `outcome_condition` hold at `s` (opcode_table.json; rule R90): this is when the
operation is well formed at that state. -/
def Instr.selectedAt (i : Instr) (s : State) (accept : Bool) : Bool :=
  match i with
  | .start => ((s.st == .stopped || s.st == .started) && !s.jStopped) || s.st == .receivingByte
  | .stop => s.st == .started || s.st == .receivingByte
  | .bitFirst _ _ => s.st == .started && !s.anyFlag
  | .bitMid _ _ => s.st == .receivingByte && decide (s.bitIndex ≤ 5#3)
  | .bitLastAddrAck nd _ =>
    s.st == .receivingByte && s.bitIndex == 6#3 && s.byteCount == 0#8
      && matchesAddress (insertBit s.acc 0 nd) s.addr
  | .bitLastAddrIgnore nd _ =>
    s.st == .receivingByte && s.bitIndex == 6#3 && s.byteCount == 0#8
      && !matchesAddress (insertBit s.acc 0 nd) s.addr
  | .bitLastDataAck _ _ =>
    s.st == .receivingByte && s.bitIndex == 6#3 && s.byteCount != 0#8 && accept
  | .bitLastDataNack _ _ =>
    s.st == .receivingByte && s.bitIndex == 6#3 && s.byteCount != 0#8 && !accept
  | .idle w =>
    !s.guardStart w && !s.guardStop w && !s.guardBitFirst w && !s.guardBitMid w && !s.guardBitLast w

/-- The operation whose row, in ascending priority, is the first to fit the word by mask and match alone, the state guards
left aside: what a sample word stands for before the state is known. The five clkRise rows share their words; the first of
them is BIT_MID (log 14). -/
def decodePattern (w : SampleWord) : Instr :=
  if w.startEdge then .start
  else if w.stopEdge then .stop
  else if w.clkFall then .bitFirst w.nd w.od
  else if w.clkRise then .bitMid w.nd w.od
  else .idle w

/-- Why a byte string holds no sample word. -/
inductive DecodeRefusal where
  /-- there is no byte at all; every tick is exactly one word (rule R80) -/
  | noWord
  deriving DecidableEq, Repr

/-- The sample word a byte string begins with: one byte a tick, the word in its four low bits; the four high bits are not
connected to anything (log 14). -/
def decodeBytes : List Byte → Except DecodeRefusal SampleWord
  | [] => .error .noWord
  | b :: _ => .ok (b.setWidth 4)

/-- The bytes of an instruction whose bits are `w`, the first byte first. -/
def tableBytes (nbits w : Nat) : List Byte :=
  (List.range ((nbits + 7) / 8)).map fun k => BitVec.ofNat 8 (w / 2 ^ (8 * k))

/-- The sample word of an instruction numbered as spec/opcode_table.json numbers it. -/
def tableWord (nbits w : Nat) : Option SampleWord := (decodeBytes (tableBytes nbits w)).toOption

/-- What the decoder reads from the bits `w`, without a state (see `decodePattern`). -/
def decodeTableWord (nbits w : Nat) : Option Instr := (tableWord nbits w).map decodePattern

end Sys2Proof
end

