-- ==== Sys2Proof/Machine/Ops.lean ====
section
/-! DEFINITION. The named operations the meanings share: taking a tick from the environment (30_encoding.md rules R80,
R82, R95), emitting events (00_scope.md rule R10), the open-drain driver (42_address_ack.md rule R165), capturing a bit
(30_encoding.md rule R87), delivering a byte (42_address_ack.md rule R150). The hardware has no exception to take and
none to return from (60_exceptions.md rules R195, R197). -/

namespace Sys2Proof.Machine

/-- The tick about to run: the next one presented, else one drawn freely whose calls return (log 1, log 2). -/
def State.currentTick (s : State) : Tick :=
  match s.ticks with
  | t :: _ => t
  | [] => { word := Config.freeWord s.tickNo, answer := none, returns := true }

/-- The sample word of the tick about to run. With `SAMPLE_SOURCE = InternalRegs` the old levels are those of the two
registers and the tick gives only the line levels, as `nd` and `nc` (30_encoding.md rule R82). -/
def State.currentWord (s : State) : SampleWord :=
  let w := s.currentTick.word
  match s.sampleSource with
  | .external => w
  | .internalRegs => .pack w.nd w.nc s.prevData s.prevClock

/-- The provider's answer in the tick about to run (30_encoding.md rule R95; free where the tick gives none, log 3). -/
def State.accept (s : State) : Bool := s.currentTick.answer.getD (Config.freeAccept s.tickNo)

/-- The operation the tick about to run selects (30_encoding.md rule R90). -/
def State.nextInstr (s : State) : Instr := s.decode s.currentWord s.accept

/-- The tick is taken from the environment: with `InternalRegs`, `prevData <- data` and `prevClock <- clock`
(30_encoding.md rule R82). None of the nine elements of rule R20 changes. -/
def State.takeTick (s : State) : State :=
  { s with
    ticks := s.ticks.tail
    tickNo := s.tickNo + 1
    prevData := match s.sampleSource with | .external => s.prevData | .internalRegs => s.currentWord.nd
    prevClock := match s.sampleSource with | .external => s.prevClock | .internalRegs => s.currentWord.nc }

/-- The operation calls a provider entry point: `Notify` (60_exceptions.md rule R202) or a byte (rule R203). -/
def callsProvider : Instr → Bool
  | .start => true
  | .stop => true
  | .bitFirst _ _ => false
  | .bitMid _ _ => false
  | .bitLastAddrAck _ _ => true
  | .bitLastAddrIgnore _ _ => false
  | .bitLastDataAck _ _ => true
  | .bitLastDataNack _ _ => true
  | .idle _ => false

/-- The tick about to run makes a provider call that does not return (U12; log 4). -/
def State.callIsStuck (s : State) : Bool := callsProvider s.nextInstr && !s.currentTick.returns

/-- `emit e` (00_scope.md rule R10). -/
def State.emit (e : Event) (s : State) : State := { s with events := s.events ++ [e] }

/-- `Drive(Low)`: the command, and the latch to 1 (42_address_ack.md rule R165; 10_state.md rule R27, decision D10). -/
def State.driveLow (s : State) : State := { s.emit (.drive .low) with sdaPull := true }

/-- `Drive(High)`: the command, and the latch to 0 (42_address_ack.md rule R165; 10_state.md rule R27, decision D10). -/
def State.driveHigh (s : State) : State := { s.emit (.drive .high) with sdaPull := false }

/-- The first bit of a byte: arrival index 0, position 7, the other positions cleared (41_byte_assembly.md rule R130). -/
def State.captureFirst (nd : Bool) (s : State) : State :=
  { s with bitIndex := 0, acc := firstBitByte nd }

/-- The next bit: `n = bitIndex + 1`, `acc[7-n] <- nd`, `bitIndex <- n` (41_byte_assembly.md rule R132). -/
def State.captureNext (nd : Bool) (s : State) : State :=
  { s with acc := insertBit s.acc (7 - (s.bitIndex.toNat + 1)) nd, bitIndex := s.bitIndex + 1 }

/-- The eighth bit: `acc[0] <- nd`, `bitIndex <- 7` (41_byte_assembly.md rule R134, decision D5). -/
def State.captureLast (nd : Bool) (s : State) : State :=
  { s with acc := insertBit s.acc 0 nd, bitIndex := 7 }

/-- The byte entry point the direction selects, called with the accumulator (42_address_ack.md rule R150). -/
def State.byteEvent (s : State) : Event :=
  match s.dir with
  | .read => .readByte s.acc
  | .write => .writeByte s.acc

/-- The completed byte goes to the provider (42_address_ack.md rule R150; 60_exceptions.md rule R203). -/
def State.deliverByte (s : State) : State := s.emit s.byteEvent

/-- The byte count is incremented, saturating (10_state.md rule R25, decision D8). -/
def State.countByte (s : State) : State := { s with byteCount := countUp s.byteCount }

/-- The end of every BIT_LAST: `jAcked <- 1` (41_byte_assembly.md rule R134). -/
def State.setAcked (s : State) : State := { s with jAcked := true }

end Sys2Proof.Machine
end

