-- ==== Sys2Proof/Machine/AddressAck.lean ====
section
/-! DEFINITION. BIT_LAST with its four completion outcomes (41_byte_assembly.md rule R134; 42_address_ack.md rules R150 to
R154): capture, then the outcome in the order of 20_memory.md rule R65, then `jAcked <- 1`. -/

namespace Sys2Proof.Machine

/-- BIT_LAST.ADDR_ACK (rule R151). -/
def execBitLastAddrAck (nd : Bool) (s : State) : Host.Outcome State Fault Refusal :=
  let s := s.captureLast nd
  let s := { s with dir := extractDirection s.acc, st := .started }
  let s := (s.emit (.notify .started)).driveLow
  .next s.countByte.setAcked

/-- BIT_LAST.ADDR_IGNORE (rule R152). -/
def execBitLastAddrIgnore (nd : Bool) (s : State) : Host.Outcome State Fault Refusal :=
  let s := s.captureLast nd
  let s := { s with dir := extractDirection s.acc, st := .stopped }
  .next s.setAcked

/-- BIT_LAST.DATA_ACK (rule R153). -/
def execBitLastDataAck (nd : Bool) (s : State) : Host.Outcome State Fault Refusal :=
  let s := (s.captureLast nd).deliverByte
  let s := { s.driveLow with st := .started }
  .next s.countByte.setAcked

/-- BIT_LAST.DATA_NACK (rule R154). -/
def execBitLastDataNack (nd : Bool) (s : State) : Host.Outcome State Fault Refusal :=
  let s := (s.captureLast nd).deliverByte
  let s := (s.emit (.notify .stopped)).driveHigh
  let s := { s with st := .stopped }
  .next s.countByte.setAcked

end Sys2Proof.Machine
end

