-- ==== Sys2Proof/Machine/ByteAssembly.lean ====
section
/-! DEFINITION. The serial-to-parallel byte assembler (41_byte_assembly.md): BIT_FIRST and BIT_MID. The eighth bit is
captured by the operations of Machine/AddressAck.lean. -/

namespace Sys2Proof.Machine

/-- BIT_FIRST (rule R130). -/
def execBitFirst (nd : Bool) (s : State) : Host.Outcome State Fault Refusal :=
  .next { s.captureFirst nd with st := .receivingByte }

/-- BIT_MID (rule R132). -/
def execBitMid (nd : Bool) (s : State) : Host.Outcome State Fault Refusal :=
  .next (s.captureNext nd)

end Sys2Proof.Machine
end

