-- ==== Sys2Proof/Machine/Conditions.lean ====
section
/-! DEFINITION. The START/STOP condition logic (40_conditions.md): START and STOP. A meaning is the rule's pseudocode; the
rule's guard stands in the decode (log 16). -/

namespace Sys2Proof.Machine

/-- START (rule R110). -/
def execStart (s : State) : Host.Outcome State Fault Refusal :=
  let s := { s with byteCount := 0, acc := 0, bitIndex := 0, st := .started }
  let s := s.emit (.notify .started)
  .next { s with jStarted := true }

/-- STOP (rule R112). -/
def execStop (s : State) : Host.Outcome State Fault Refusal :=
  let s := s.emit (.notify .stopped)
  .next { s with st := .stopped, jStopped := true }

end Sys2Proof.Machine
end

