-- ==== Sys2Proof/Machine/Idle.lean ====
section
/-! DEFINITION. The fall-through of the detection rules (43_idle.md): IDLE. -/

namespace Sys2Proof.Machine

/-- IDLE (rule R180): the suppression flags are cleared, nothing else changes. -/
def execIdle (s : State) : Host.Outcome State Fault Refusal := .next s.clearFlags

end Sys2Proof.Machine
end

