-- ==== Sys2Proof/Machine/Dispatch.lean ====
section
/-! DEFINITION. The dispatch: one arm per operation of spec/opcode_table.json. -/

namespace Sys2Proof.Machine

def exec (i : Instr) (s : State) : Host.Outcome State Fault Refusal :=
  match i with
  | .start => Sys2Proof.Machine.execStart s
  | .stop => Sys2Proof.Machine.execStop s
  | .bitFirst nd _ => Sys2Proof.Machine.execBitFirst nd s
  | .bitMid nd _ => Sys2Proof.Machine.execBitMid nd s
  | .bitLastAddrAck nd _ => Sys2Proof.Machine.execBitLastAddrAck nd s
  | .bitLastAddrIgnore nd _ => Sys2Proof.Machine.execBitLastAddrIgnore nd s
  | .bitLastDataAck nd _ => Sys2Proof.Machine.execBitLastDataAck nd s
  | .bitLastDataNack nd _ => Sys2Proof.Machine.execBitLastDataNack nd s
  | .idle _ => Sys2Proof.Machine.execIdle s

end Sys2Proof.Machine
end

