-- ==== Sys2Proof/Machine/Fetch.lean ====
section
/-! DEFINITION. Placing a sample word so that the next step runs it (log 15): the tick is presented, and the sequencing
state, which plays the program counter's role (10_state.md rule R30), is set where the word selects its own operation. -/

namespace Sys2Proof.Machine

/-- The state at which operation `i` is selected: `s` itself where it is, else `s` with the least of its sequencing state
changed (the `state_guard` of i's row; 30_encoding.md rule R90). BIT_LAST's rows are never asked for: see
`decodePattern`. -/
def State.readyFor (s : State) (i : Instr) : State :=
  if i.selectedAt s s.accept then s else
  match i with
  | .start => { s with jStopped := false }
  | .stop => { s with st := .started }
  | .bitFirst _ _ => { s with st := .started, jStarted := false, jStopped := false, jAcked := false }
  | .bitMid _ _ => { s with st := .receivingByte, bitIndex := 0 }
  | .bitLastAddrAck _ _ => s
  | .bitLastAddrIgnore _ _ => s
  | .bitLastDataAck _ _ => s
  | .bitLastDataNack _ _ => s
  | .idle _ => s

/-- The word is the next tick's sample word; under `InternalRegs` the two registers hold its old levels. -/
def State.presentWord (s : State) (w : SampleWord) : State :=
  let s := { s with ticks := { word := w, answer := none, returns := true } :: s.ticks }
  match s.sampleSource with
  | .external => s
  | .internalRegs => { s with prevData := w.od, prevClock := w.oc }

/-- `withFetchWord` on a sample word. -/
def State.withSampleWord (s : State) (w : SampleWord) : State :=
  (s.presentWord w).readyFor (decodePattern w)

end Sys2Proof.Machine
end

