-- ==== Sys2Proof/Machine/Step.lean ====
section
/-! DEFINITION. One step = one tick (00_scope.md rule R11): the guards read the state at tick entry (20_memory.md rule
R66), the selected operation runs, the tick is consumed. The only stop is a provider call that does not return (U12). -/

namespace Sys2Proof.Machine

/-- One `Tick` (00_scope.md rule R11). -/
def step (s : State) : Host.Outcome State Fault Refusal :=
  if s.callIsStuck then .fault .providerCallDidNotReturn
  else exec s.nextInstr s.takeTick

/-- `s` with the instruction of bits `w` placed where the next step takes it (log 15); `s` itself where the bits hold no
sample word. -/
def State.withFetchWord (s : State) (nbits w : Nat) : State :=
  match tableWord nbits w with
  | some word => s.withSampleWord word
  | none => s

end Sys2Proof.Machine
end

