-- ==== Sys2Proof/WellFormed.lean ====
section
/-! DEFINITION. The check at construction (60_exceptions.md rules R191, R201 to R203; 70_reset_and_hazards.md rule R222).
No sample word and no operand of an operation is ill formed (30_encoding.md rule R93), so the one thing that can be ill
formed is the provider a decoder is built with. Whether an operation fits a state is `Instr.selectedAt` of Decode.lean. -/

namespace Sys2Proof.Machine

/-- The provider as construction sees it: which of its four capabilities it has. -/
structure Provider where
  address : Option Nat
  hasNotify : Bool
  hasWriteByte : Bool
  hasReadByte : Bool
  deriving DecidableEq, Repr

/-- What is wrong with the address: absent (rule R191) or wider than 7 bits (U11, decision D14). -/
def Provider.addressProblems (p : Provider) : List ConfigProblem :=
  match p.address with
  | none => [.noAddress]
  | some a => if a < 128 then [] else [.addressTooWide]

/-- Everything rule R191 finds wrong with a provider. -/
def Provider.problems (p : Provider) : List ConfigProblem :=
  p.addressProblems
    ++ (if p.hasNotify then [] else [.noNotify])
    ++ (if p.hasWriteByte then [] else [.noWriteByte])
    ++ (if p.hasReadByte then [] else [.noReadByte])

/-- A decoder may be built with this provider. -/
abbrev Provider.wellFormed (p : Provider) : Bool := p.problems.isEmpty

end Sys2Proof.Machine
end

