-- ==== Sys2Proof/Machine/Construct.lean ====
section
/-! DEFINITION. Construction and reset (60_exceptions.md rule R191; 70_reset_and_hazards.md rules R220, R222;
30_encoding.md rule R97, port `rst`). -/

namespace Sys2Proof.Machine

/-- `construct(busMedium, provider)` (rule R191): the configuration error, or a decoder in its reset state. The
registration with the Bus Medium is outside the model (log 26). -/
def construct (p : Provider) : Host.Outcome State Fault Refusal :=
  if p.wellFormed then
    match p.address with
    | some a => .next (.fresh (BitVec.ofNat 7 a) Config.sampleSource)
    | none => .fault (.configurationError p.problems)
  else .fault (.configurationError p.problems)

/-- The port `rst`: the reset state of rule R34 in every element of the core; the constants and the environment's lists
stay. It is no part of `step`: there is no second reset during a session (10_state.md rule R36; log 27). -/
def State.applyRst (s : State) : State :=
  { State.fresh s.addr s.sampleSource with ticks := s.ticks, tickNo := s.tickNo, events := s.events }

end Sys2Proof.Machine
end

