-- ==== Sys2Proof/Machine/Ports.lean ====
section
/-! DEFINITION. The output ports of 30_encoding.md rule R97, read off a tick, and the symbolic error classes of
60_exceptions.md rule R190. Nothing in the core reads either. -/

namespace Sys2Proof.Machine

/-- The output ports during one tick (rule R97). A `none` is a `*_valid` of 0. -/
structure Ports where
  /-- `notify_valid`, `notify_kind` -/
  notify : Option Bool
  /-- `byte_valid`, `byte_dir`, `byte_data` -/
  byte : Option (Bool × Byte)
  /-- `drive_valid`, `drive_level` -/
  drive : Option Bool
  /-- `sda_pull` -/
  sdaPull : Bool
  deriving DecidableEq, Repr

/-- The events a tick added, from the states before and after it. -/
def newEvents (before after : State) : List Event := after.events.drop before.events.length

/-- `notify_kind` of an event. -/
def Event.notifyPort : Event → Option Bool
  | .notify k => some k.code
  | .writeByte _ => none
  | .readByte _ => none
  | .drive _ => none

/-- `byte_dir` and `byte_data` of an event. -/
def Event.bytePort : Event → Option (Bool × Byte)
  | .notify _ => none
  | .writeByte b => some (Direction.write.toBit, b)
  | .readByte b => some (Direction.read.toBit, b)
  | .drive _ => none

/-- `drive_level` of an event. -/
def Event.drivePort : Event → Option Bool
  | .notify _ => none
  | .writeByte _ => none
  | .readByte _ => none
  | .drive l => some l.code

/-- The ports during the tick that led from `before` to `after`; there is at most one event of each kind a tick
(10_state.md rule R32 e). -/
def portsOfTick (before after : State) : Ports where
  notify := (newEvents before after).findSome? Event.notifyPort
  byte := (newEvents before after).findSome? Event.bytePort
  drive := (newEvents before after).findSome? Event.drivePort
  sdaPull := after.sdaPull

/-- The non-fatal classes of rule R190 (decision D17: symbolic codes). `E_CONFIG` is `Fault.configurationError`. -/
inductive ErrorClass where
  | mismatch
  | reject
  | malformed
  deriving DecidableEq, Repr

/-- The class an operation belongs to (rules R190, R192 to R194): a malformed sequence is an IDLE on a START or a STOP
pattern (43_idle.md rule R181). -/
def errorClass : Instr → Option ErrorClass
  | .start => none
  | .stop => none
  | .bitFirst _ _ => none
  | .bitMid _ _ => none
  | .bitLastAddrAck _ _ => none
  | .bitLastAddrIgnore _ _ => some .mismatch
  | .bitLastDataAck _ _ => none
  | .bitLastDataNack _ _ => some .reject
  | .idle w => if w.startEdge || w.stopEdge then some .malformed else none

end Sys2Proof.Machine
end

