-- ==== Sys2Proof/Safety.lean ====
section
/-! DEFINITION. The terms claims are stated in: the invariants of 10_state.md rule R32, agreement of two states on what an
output can depend on (rule R35), runs inside one byte (30_encoding.md rule R85), the value of a byte in arrival order
(rule R87). -/

namespace Sys2Proof.Machine

/-- R32 (a): inside a byte the flags are clear and `bitIndex` is at most 6. -/
abbrev State.ReceivingIsClean (s : State) : Prop :=
  s.st = .receivingByte → s.jStarted = false ∧ s.jStopped = false ∧ s.jAcked = false ∧ s.bitIndex ≤ 6#3

/-- R32 (b), first half: `jStopped` only in `Stopped`. -/
abbrev State.JStoppedMeansStopped (s : State) : Prop := s.jStopped = true → s.st = .stopped

/-- Inside a byte the positions not yet captured are 0 (41_byte_assembly.md rules R130, R132 corner case a). -/
abbrev State.UncapturedBitsAreZero (s : State) : Prop :=
  s.st = .receivingByte → s.acc <<< (s.bitIndex.toNat + 1) = 0#8

/-- The most recent `Drive` of a list of events was `Drive(Low)`. -/
def lastDriveWasLow (es : List Event) : Bool :=
  es.foldl (fun low e => match e with
    | .drive .low => true
    | .drive .high => false
    | .notify _ => low
    | .writeByte _ => low
    | .readByte _ => low) false

/-- R32 (f): the latch is 1 exactly when the most recent `Drive` was `Drive(Low)`. -/
abbrev State.LatchFollowsDrives (s : State) : Prop := s.sdaPull = lastDriveWasLow s.events

/-- R32 (g), in terms of events: inside a transaction the count is 0 exactly while nothing has been acknowledged since the
START, whose notification is then the last event; otherwise the last event is an acknowledge. -/
abbrev State.CountFollowsEvents (s : State) : Prop :=
  s.st ≠ .stopped →
    s.events.getLast? = if s.byteCount = 0#8 then some (.notify .started) else some (.drive .low)

/-- The invariants together. -/
abbrev State.Inv (s : State) : Prop :=
  s.ReceivingIsClean ∧ s.JStoppedMeansStopped ∧ s.UncapturedBitsAreZero ∧ s.LatchFollowsDrives ∧ s.CountFollowsEvents

/-- Agreement on everything an event or the protocol state can ever depend on: `sdaPull` is free; outside a transaction
`byteCount`, `dir`, `acc`, `bitIndex` are free; inside one, of `byteCount` only the zero test counts (10_state.md rule
R25), `dir` counts only after an address byte was acknowledged (rule R32 h), `acc` and `bitIndex` only inside a byte. -/
def State.Agree (s t : State) : Prop :=
  s.st = t.st ∧ s.jStarted = t.jStarted ∧ s.jStopped = t.jStopped ∧ s.jAcked = t.jAcked
    ∧ s.addr = t.addr ∧ s.sampleSource = t.sampleSource ∧ s.prevData = t.prevData ∧ s.prevClock = t.prevClock
    ∧ s.ticks = t.ticks ∧ s.tickNo = t.tickNo ∧ s.events = t.events
    ∧ (s.st ≠ .stopped → (s.byteCount = 0#8 ↔ t.byteCount = 0#8))
    ∧ (s.st ≠ .stopped → s.byteCount ≠ 0#8 → s.dir = t.dir)
    ∧ (s.st = .receivingByte → s.acc = t.acc ∧ s.bitIndex = t.bitIndex)

/-- Two outcomes are alike: both go on, to states that agree, or both stop for the same reason. -/
def outcomesAgree (a b : Host.Outcome State Fault Refusal) : Prop :=
  match a, b with
  | .next s, .next t => s.Agree t
  | .fault f, .fault g => f = g
  | .refused r, .refused q => r = q
  | _, _ => False

/-- A run inside one byte: any number of steps that execute IDLE, and steps that execute BIT_MID, whose captured bits are
listed in order of arrival. -/
inductive CaptureRun : State → List Bool → State → Prop where
  | refl (s : State) : CaptureRun s [] s
  | idle {s t u : State} {bits : List Bool} {w : SampleWord} :
      CaptureRun s bits t → t.nextInstr = .idle w → step t = .next u → CaptureRun s bits u
  | mid {s t u : State} {bits : List Bool} {nd od : Bool} :
      CaptureRun s bits t → t.nextInstr = .bitMid nd od → step t = .next u → CaptureRun s (bits ++ [nd]) u

/-- The number that bits in order of arrival spell, most significant bit first (20_memory.md rule R52). -/
def bitsValue (bits : List Bool) : Nat := bits.foldl (fun v b => 2 * v + b.toNat) 0

end Sys2Proof.Machine
end

