-- ==== Sys2Proof/Certificates/Slice0/Obligations.lean ====
section
/-! DEFINITION. The statements for the provers. `s.nextInstr` is the operation the tick about to run selects, and
`s.takeTick` the state with that tick taken from the environment; the nine elements of rule R20 are the same in both. A
statement about a free value (an answer or a word the environment has not given) holds for every value of it. -/

open Sys2Proof Sys2Proof.Machine

/-! ### The nine operations: when each is selected, and its whole effect (which is its frame too) -/

/-- START (40_conditions.md). The clearing of `acc` and `bitIndex` is decision D7 (log 19), keeping `jStopped` and `jAcked`
decision D4 (log 10). -/
def Obligations.StartClearsContextAndNotifies : Prop :=
  ∀ s : State,
    (∀ w a, s.decode w a = .start ↔
      w = 0x7 ∧ (((s.st = .stopped ∨ s.st = .started) ∧ s.jStopped = false) ∨ s.st = .receivingByte)) ∧
    exec .start s = .next { s with
      byteCount := 0, acc := 0, bitIndex := 0, st := .started, jStarted := true
      events := s.events ++ [.notify .started] }

/-- STOP (40_conditions.md). Keeping the other flags is decision D4 (log 10). -/
def Obligations.StopNotifiesAndKeepsContext : Prop :=
  ∀ s : State,
    (∀ w a, s.decode w a = .stop ↔ w = 0xD ∧ (s.st = .started ∨ s.st = .receivingByte)) ∧
    exec .stop s = .next { s with st := .stopped, jStopped := true, events := s.events ++ [.notify .stopped] }

/-- BIT_FIRST (41_byte_assembly.md). Clearing `acc[6:0]` is decision D6 (log 19). -/
def Obligations.BitFirstBeginsAByte : Prop :=
  ∀ (s : State) (nd od : Bool),
    (∀ w a, s.decode w a = .bitFirst nd od ↔
      w = .pack nd false od true ∧ s.st = .started ∧
        s.jStarted = false ∧ s.jStopped = false ∧ s.jAcked = false) ∧
    exec (.bitFirst nd od) s = .next { s with
      bitIndex := 0, acc := if nd then 0x80 else 0x00, st := .receivingByte }

/-- Rule R132 with its corner cases (a), (d), (e). -/
def Obligations.BitMidCapturesTheNextBit : Prop :=
  ∀ (s : State) (nd od : Bool),
    (∀ w a, s.decode w a = .bitMid nd od ↔
      w = .pack nd true od false ∧ s.st = .receivingByte ∧ s.bitIndex ≤ 5#3) ∧
    (s.bitIndex ≤ 5#3 → ∃ t, exec (.bitMid nd od) s = .next t ∧
      t = { s with acc := t.acc, bitIndex := t.bitIndex } ∧
      t.bitIndex = s.bitIndex + 1 ∧
      (∀ p, p < 8 → t.acc.getLsbD p = if p = 7 - (s.bitIndex.toNat + 1) then nd else s.acc.getLsbD p) ∧
      (s.st = .receivingByte → s.UncapturedBitsAreZero →
        t.acc = s.acc ||| (if nd then 0x80#8 >>> (s.bitIndex.toNat + 1) else 0#8))) ∧
    (s.st = .receivingByte → ∀ w a,
      (w.clkFall = true ∨ w = 0x2 ∨ w = 0x8 → s.decode w a = .idle w) ∧
      (w = 0x7 → s.decode w a = .start) ∧ (w = 0xD → s.decode w a = .stop))

/-- BIT_LAST (41_byte_assembly.md): the part common to its four outcomes. That it fires at stored `bitIndex` 6 and leaves 7
is decision D5 (log 11). -/
def Obligations.BitLastCapturesTheEighthBit : Prop :=
  ∀ (s : State) (nd od : Bool),
    let outcomes : List Instr :=
      [.bitLastAddrAck nd od, .bitLastAddrIgnore nd od, .bitLastDataAck nd od, .bitLastDataNack nd od]
    (∀ w a, s.decode w a ∈ outcomes ↔
      w = .pack nd true od false ∧ s.st = .receivingByte ∧ s.bitIndex = 6#3) ∧
    (∀ i ∈ outcomes, ∃ t, exec i s = .next t ∧
      (∀ p, p < 8 → t.acc.getLsbD p = if p = 0 then nd else s.acc.getLsbD p) ∧
      t.bitIndex = 7 ∧ t.jAcked = true ∧ t.jStarted = s.jStarted ∧ t.jStopped = s.jStopped ∧
      t.st ≠ .receivingByte)

/-- BIT_LAST.ADDR_ACK (42_address_ack.md). The latch is decision D10 (log 12), the notification's argument D11 (log 18). -/
def Obligations.AddrAckAcknowledges : Prop :=
  ∀ (s : State) (nd od : Bool),
    (∀ w a, s.decode w a = .bitLastAddrAck nd od ↔
      w = .pack nd true od false ∧ s.st = .receivingByte ∧ s.bitIndex = 6#3 ∧ s.byteCount = 0#8 ∧
        s.acc.extractLsb' 1 7 = s.addr) ∧
    (s.byteCount = 0#8 → exec (.bitLastAddrAck nd od) s = .next { s with
      acc := insertBit s.acc 0 nd, bitIndex := 7, dir := if nd then .read else .write, st := .started
      events := s.events ++ [.notify .started, .drive .low], sdaPull := true, byteCount := 1, jAcked := true })

/-- BIT_LAST.ADDR_IGNORE (42_address_ack.md). Writing `dir` is decision D9 (log 19), the absence of a notification D11
(log 18). -/
def Obligations.AddrIgnoreStopsSilently : Prop :=
  ∀ (s : State) (nd od : Bool),
    (∀ w a, s.decode w a = .bitLastAddrIgnore nd od ↔
      w = .pack nd true od false ∧ s.st = .receivingByte ∧ s.bitIndex = 6#3 ∧ s.byteCount = 0#8 ∧
        s.acc.extractLsb' 1 7 ≠ s.addr) ∧
    exec (.bitLastAddrIgnore nd od) s = .next { s with
      acc := insertBit s.acc 0 nd, bitIndex := 7, dir := if nd then .read else .write, st := .stopped
      jAcked := true }

/-- BIT_LAST.DATA_ACK (42_address_ack.md). The latch is decision D10 (log 12), the counting D8 (log 9), the absence of a
notification D11 (log 18). -/
def Obligations.DataAckDeliversAndAcknowledges : Prop :=
  ∀ (s : State) (nd od : Bool),
    (∀ w a, s.decode w a = .bitLastDataAck nd od ↔
      w = .pack nd true od false ∧ s.st = .receivingByte ∧ s.bitIndex = 6#3 ∧ s.byteCount ≠ 0#8 ∧ a = true) ∧
    exec (.bitLastDataAck nd od) s = .next { s with
      acc := insertBit s.acc 0 nd, bitIndex := 7, st := .started, sdaPull := true, jAcked := true
      events := s.events ++
        [if s.dir = .read then .readByte (insertBit s.acc 0 nd) else .writeByte (insertBit s.acc 0 nd),
          .drive .low]
      byteCount := if s.byteCount = 255 then 255 else s.byteCount + 1 }

/-- BIT_LAST.DATA_NACK (42_address_ack.md). The latch is decision D10 (log 12), the counting D8 (log 9). -/
def Obligations.DataNackDeliversAndAborts : Prop :=
  ∀ (s : State) (nd od : Bool),
    (∀ w a, s.decode w a = .bitLastDataNack nd od ↔
      w = .pack nd true od false ∧ s.st = .receivingByte ∧ s.bitIndex = 6#3 ∧ s.byteCount ≠ 0#8 ∧ a = false) ∧
    exec (.bitLastDataNack nd od) s = .next { s with
      acc := insertBit s.acc 0 nd, bitIndex := 7, st := .stopped, sdaPull := false, jAcked := true
      events := s.events ++
        [if s.dir = .read then .readByte (insertBit s.acc 0 nd) else .writeByte (insertBit s.acc 0 nd),
          .notify .stopped, .drive .high]
      byteCount := if s.byteCount = 255 then 255 else s.byteCount + 1 }

/-- IDLE (43_idle.md). That it alone clears flags is decision D4 (log 10). -/
def Obligations.IdleOnlyClearsFlags : Prop :=
  ∀ (s : State) (w : SampleWord),
    (∀ a, s.decode w a = .idle w ↔ ¬ s.guardStart w ∧ ¬ s.guardStop w ∧ ¬ s.guardBitFirst w ∧
      ¬ s.guardBitMid w ∧ ¬ s.guardBitLast w) ∧
    exec (.idle w) s = .next { s with jStarted := false, jStopped := false, jAcked := false }

/-! ### Decode and encode -/

/-- Rule R81, with the fields of rule R80 that it reads. The places of the fields, and so the sets of words, are decision D2
(log 14). -/
def Obligations.EdgeDetectorClassifiesWords : Prop :=
  ∀ nd nc od oc : Bool,
    let w := SampleWord.pack nd nc od oc
    (w.nd = nd ∧ w.nc = nc ∧ w.od = od ∧ w.oc = oc) ∧
    (w.startEdge = (oc && nc && od && !nd) ∧ (w.startEdge = true ↔ w = 0x7)) ∧
    (w.stopEdge = (oc && nc && !od && nd) ∧ (w.stopEdge = true ↔ w = 0xD)) ∧
    (w.clkFall = (oc && !nc) ∧ (w.clkFall = true ↔ w = 0x1 ∨ w = 0x3 ∨ w = 0x9 ∨ w = 0xB)) ∧
    (w.clkRise = (!oc && nc) ∧ (w.clkRise = true ↔ w = 0x4 ∨ w = 0x6 ∨ w = 0xC ∨ w = 0xE)) ∧
    [w.startEdge, w.stopEdge, w.clkFall, w.clkRise].count true ≤ 1

/-- Rule R90: the priority list, each guard spelled as the rule spells it, and the four outcomes. That the guard of
BIT_LAST asks for stored `bitIndex` 6 is decision D5, which resolves conflict C2 (log 11). -/
def Obligations.DecodeIsThePriorityList : Prop :=
  ∀ (s : State) (w : SampleWord) (a : Bool),
    let g1 := w.startEdge = true ∧
      (((s.st = .stopped ∨ s.st = .started) ∧ s.jStopped = false) ∨ s.st = .receivingByte)
    let g2 := w.stopEdge = true ∧ (s.st = .started ∨ s.st = .receivingByte)
    let g3 := s.st = .started ∧ ¬ (s.jStarted = true ∨ s.jStopped = true ∨ s.jAcked = true) ∧ w.clkFall = true
    let g4 := s.st = .receivingByte ∧ w.clkRise = true ∧ s.bitIndex ≤ 5#3
    let g5 := s.st = .receivingByte ∧ w.clkRise = true ∧ s.bitIndex = 6#3
    let acc := insertBit s.acc 0 w.nd
    (g1 → s.decode w a = .start) ∧
    (¬ g1 → g2 → s.decode w a = .stop) ∧
    (¬ g1 → ¬ g2 → g3 → s.decode w a = .bitFirst w.nd w.od) ∧
    (¬ g1 → ¬ g2 → ¬ g3 → g4 → s.decode w a = .bitMid w.nd w.od) ∧
    (¬ g1 → ¬ g2 → ¬ g3 → ¬ g4 → g5 →
      (s.byteCount = 0#8 ∧ acc.extractLsb' 1 7 = s.addr → s.decode w a = .bitLastAddrAck w.nd w.od) ∧
      (s.byteCount = 0#8 ∧ acc.extractLsb' 1 7 ≠ s.addr → s.decode w a = .bitLastAddrIgnore w.nd w.od) ∧
      (s.byteCount ≠ 0#8 ∧ a = true → s.decode w a = .bitLastDataAck w.nd w.od) ∧
      (s.byteCount ≠ 0#8 ∧ a = false → s.decode w a = .bitLastDataNack w.nd w.od)) ∧
    (¬ g1 → ¬ g2 → ¬ g3 → ¬ g4 → ¬ g5 → s.decode w a = .idle w)

/-- The priority order never breaks a tie (the remark of 30_encoding.md after the guard list). -/
def Obligations.GuardsExcludeOneAnother : Prop :=
  ∀ (s : State) (w : SampleWord),
    [s.guardStart w, s.guardStop w, s.guardBitFirst w, s.guardBitMid w, s.guardBitLast w].count true ≤ 1

/-- The matrix of sample word against state (30_encoding.md section 3). The cell of `0x7` against `Started` needs the flag
clear, which an invariant gives; here it stands as a condition. -/
def Obligations.DecodeMatrix : Prop :=
  ∀ (s : State) (w : SampleWord) (a : Bool),
    (s.st = .stopped → s.decode w a = if w = 0x7 ∧ s.jStopped = false then .start else .idle w) ∧
    (s.st = .started → s.decode w a =
      if w = 0x7 ∧ s.jStopped = false then .start
      else if w = 0xD then .stop
      else if w ∈ [0x1, 0x3, 0x9, 0xB] ∧ s.anyFlag = false then .bitFirst w.nd w.od
      else .idle w) ∧
    (s.st = .receivingByte → s.decode w a =
      if w = 0x7 then .start
      else if w = 0xD then .stop
      else if w ∈ [0x4, 0x6, 0xC, 0xE] then
        if s.bitIndex = 7#3 then .idle w
        else if s.bitIndex = 6#3 then s.completion w.nd w.od a
        else .bitMid w.nd w.od
      else .idle w)

/-- No bit of a sample word is dropped: the selected operation encodes to the word it was decoded from. -/
def Obligations.EncodeOfDecodeIsTheWord : Prop :=
  ∀ (s : State) (w : SampleWord) (a : Bool),
    (s.decode w a).encode = w ∧ (s.decode w a).row.fits w = true

/-- An operation whose guard and outcome condition hold at a state is what its own word decodes to there, and only such an
operation is. -/
def Obligations.DecodeOfEncodeIsTheOperation : Prop :=
  ∀ (i : Instr) (s : State) (a : Bool), i.selectedAt s a = true ↔ s.decode i.encode a = i

/-- A few words of the spec's encodings, decoded where their guards hold (95_test_vectors.md V1, V20, V32, V40, V60, V63,
V71, V73, V80). -/
def Obligations.SpecWordsDecode : Prop :=
  let s := State.fresh 0x50 .external
  s.decode 0b0111 false = .start ∧
  { s with st := .started }.decode 0b1101 false = .stop ∧
  { s with st := .started }.decode 0b1001 false = .bitFirst true false ∧
  { s with st := .receivingByte }.decode 0b1110 false = .bitMid true true ∧
  { s with st := .receivingByte, bitIndex := 6, acc := 0xA0 }.decode 0b1110 false = .bitLastAddrAck true true ∧
  { s with st := .receivingByte, bitIndex := 6, acc := 0xA2 }.decode 0b0100 false = .bitLastAddrIgnore false false ∧
  { s with st := .receivingByte, bitIndex := 6, byteCount := 1 }.decode 0b0100 true = .bitLastDataAck false false ∧
  { s with st := .receivingByte, bitIndex := 6, byteCount := 1 }.decode 0b1110 false = .bitLastDataNack true true ∧
  { s with st := .started, jStarted := true }.decode 0b0101 false = .idle 0b0101

/-- Rule R150: the completion dispatch on the state at tick entry, and the entry point that a payload byte goes to. That
`dir` is written on a mismatch too is decision D9 (log 19). -/
def Obligations.CompletionDispatch : Prop :=
  ∀ (s : State) (w : SampleWord) (a : Bool),
    s.st = .receivingByte → w.clkRise = true → s.bitIndex = 6#3 →
    let acc := insertBit s.acc 0 w.nd
    (s.byteCount = 0#8 →
      (acc.extractLsb' 1 7 = s.addr → s.decode w a = .bitLastAddrAck w.nd w.od) ∧
      (acc.extractLsb' 1 7 ≠ s.addr → s.decode w a = .bitLastAddrIgnore w.nd w.od) ∧
      ∃ t, exec (s.decode w a) s = .next t ∧ t.dir = if acc.getLsbD 0 then .read else .write) ∧
    (s.byteCount ≠ 0#8 →
      (a = true → s.decode w a = .bitLastDataAck w.nd w.od) ∧
      (a = false → s.decode w a = .bitLastDataNack w.nd w.od) ∧
      ∃ t, exec (s.decode w a) s = .next t ∧
        (newEvents s t).head? =
          some (if s.dir = .read then .readByte acc else .writeByte acc))

/-- Words the spec calls unreachable in these states run IDLE (30_encoding.md section 4; decision D15, log 23). -/
def Obligations.UnreachableStatesRunIdle : Prop :=
  ∀ (s : State) (w : SampleWord) (a : Bool),
    (s.st = .receivingByte → s.bitIndex = 7#3 → w.clkRise = true → s.decode w a = .idle w) ∧
    (s.st = .started → s.jStopped = true → s.decode 0x7 a = .idle 0x7)

/-- Everything 43_idle.md lists as absorbed by IDLE, and that a START or STOP pattern is absorbed nowhere else. -/
def Obligations.IgnoredSequencesRunIdle : Prop :=
  ∀ (s : State) (w : SampleWord) (a : Bool),
    (w ∈ [0x0, 0x5, 0xA, 0xF, 0x2, 0x8] → s.decode w a = .idle w) ∧
    (w.clkFall = true → s.st = .stopped ∨ s.st = .receivingByte ∨ (s.st = .started ∧ s.anyFlag = true) →
      s.decode w a = .idle w) ∧
    (w.clkRise = true → s.st = .stopped ∨ s.st = .started → s.decode w a = .idle w) ∧
    (s.st = .stopped → s.decode 0xD a = .idle 0xD) ∧
    (s.st = .stopped → s.jStopped = true → s.decode 0x7 a = .idle 0x7) ∧
    (s.JStoppedMeansStopped → w.startEdge = true ∨ w.stopEdge = true → s.decode w a = .idle w →
      (w = 0xD ∧ s.st = .stopped) ∨ (w = 0x7 ∧ s.st = .stopped ∧ s.jStopped = true))

/-- The old data level of a clock edge is ignored: flipping it changes nothing in what the tick does. -/
def Obligations.OldDataLevelIsIgnored : Prop :=
  ∀ (s : State) (w : SampleWord) (a : Bool),
    w.clkFall = true ∨ w.clkRise = true →
      exec (s.decode w a) s = exec (s.decode (.pack w.nd w.nc (!w.od) w.oc) a) s

/-! ### Reset and construction -/

/-- The reset state (10_state.md section 5). Only `st` is the document's value; the others are the spec's decision D13
(log 8), the front end's registers 30_encoding.md (log 13), and the last three fields are the model's own (log 7). -/
def Obligations.ResetStateValues : Prop :=
  (∀ (a : Address) (src : SampleSource), State.fresh a src =
    { st := .stopped, dir := .write, acc := 0x00, bitIndex := 0, byteCount := 0
      jStarted := false, jStopped := false, jAcked := false, sdaPull := false, addr := a
      sampleSource := src, prevData := true, prevClock := true, ticks := [], tickNo := 0, events := [] }) ∧
  State.reset = State.fresh Config.address .external ∧
  (∀ s : State, s.applyRst = { State.fresh s.addr s.sampleSource with
    ticks := s.ticks, tickNo := s.tickNo, events := s.events })

/-- Construction refuses a provider that lacks anything, and builds the reset state with its address otherwise
(60_exceptions.md section 1). That an address of more than 7 bits is refused is decision D14; that all problems are
reported is the model's (log 17). -/
def Obligations.ConstructionNeedsAFullProvider : Prop :=
  ∀ p : Provider,
    (∀ a, p.address = some a → a < 128 → p.hasNotify = true → p.hasWriteByte = true → p.hasReadByte = true →
      construct p = .next (State.fresh (BitVec.ofNat 7 a) .external)) ∧
    ((p.address = none ∨ p.hasNotify = false ∨ p.hasWriteByte = false ∨ p.hasReadByte = false ∨
        (∃ a, p.address = some a ∧ 128 ≤ a)) →
      ∃ problems, problems ≠ [] ∧ construct p = .fault (.configurationError problems))

/-- Rules R160, R161, R162: framing, extraction, matching, and the round-trip laws. -/
def Obligations.AddressFramingRoundTrip : Prop :=
  (∀ a : Address,
    writeFrame a = (a.setWidth 8 <<< 1) &&& 0xFE ∧ readFrame a = (a.setWidth 8 <<< 1) ||| 0x01 ∧
    writeFrame a &&& 1 = 0 ∧ readFrame a = writeFrame a ||| 1 ∧
    extractAddress (writeFrame a) = a ∧ extractDirection (writeFrame a) = .write ∧
    extractAddress (readFrame a) = a ∧ extractDirection (readFrame a) = .read) ∧
  (∀ (b : Byte) (a : Address),
    extractAddress b = (b >>> 1).setWidth 7 ∧
    (extractDirection b = .read ↔ b.getLsbD 0 = true) ∧ (extractDirection b = .write ↔ b.getLsbD 0 = false) ∧
    (matchesAddress b a = true ↔ extractAddress b = a) ∧
    (matchesAddress b a = true ↔ b = writeFrame a ∨ b = readFrame a))

/-! ### The step -/

/-- A step runs the operation that the sample word selects on the state at tick entry, after taking the tick; the tick
leaves the nine elements, the constants and the events alone. -/
def Obligations.StepRunsTheSelectedOperation : Prop :=
  ∀ s : State,
    (s.currentTick.returns = true → step s = exec (s.decode s.currentWord s.accept) s.takeTick) ∧
    (callsProvider (s.decode s.currentWord s.accept) = false →
      step s = exec (s.decode s.currentWord s.accept) s.takeTick) ∧
    s.takeTick = { s with
      ticks := s.ticks.tail, tickNo := s.tickNo + 1
      prevData := s.takeTick.prevData, prevClock := s.takeTick.prevClock } ∧
    (∀ t ts, s.ticks = t :: ts → s.sampleSource = .external → s.currentWord = t.word ∧
      s.takeTick.prevData = s.prevData ∧ s.takeTick.prevClock = s.prevClock) ∧
    (∀ t ts b, s.ticks = t :: ts → t.answer = some b → s.accept = b)

/-- Rule R11: `step` is total given that the provider returns, never refuses, reads `accept` only for a payload byte, and
issues at most one drive command. It stops exactly in a tick whose operation calls the provider and whose call does not
return: U12, with the fault and the tick's `returns` the model's own (log 4). -/
def Obligations.StepIsTotalAndReadsAcceptOnlyForPayload : Prop :=
  (∀ s : State, s.currentTick.returns = true → ∃ t, step s = .next t) ∧
  (∀ (s : State) (f : Fault), step s = .fault f →
    f = .providerCallDidNotReturn ∧ s.currentTick.returns = false ∧ callsProvider s.nextInstr = true) ∧
  (∀ s : State, callsProvider s.nextInstr = true → s.currentTick.returns = false →
    step s = .fault .providerCallDidNotReturn) ∧
  (∀ (s : State) (r : Refusal), step s ≠ .refused r) ∧
  (∀ (s : State) (w : SampleWord), s.decode w true ≠ s.decode w false →
    s.decode w true = .bitLastDataAck w.nd w.od ∧ s.decode w false = .bitLastDataNack w.nd w.od ∧
      s.byteCount ≠ 0#8) ∧
  (∀ s t : State, step s = .next t → ((newEvents s t).filterMap Event.drivePort).length ≤ 1)

/-- The word placed by `withFetchWord` is the next tick's word and its row is the one that runs (the model's convention,
log 14 and log 15). -/
def Obligations.FetchWordRunsItsRow : Prop :=
  ∀ (s : State) (nbits w : Nat) (i : Instr), decodeTableWord nbits w = some i →
    step (s.withFetchWord nbits w) = exec i (s.withFetchWord nbits w).takeTick ∧
    ((s.withFetchWord nbits w).currentWord = BitVec.ofNat 4 w) ∧
    (s.withFetchWord nbits w).takeTick.ticks = s.ticks

/-- The sequencing table (10_state.md section 2): `st` before, `st` after, `bitIndex` after. That BIT_LAST leaves 7 is
decision D5 (log 11), that START leaves 0 decision D7 (log 19). -/
def Obligations.SequencingTable : Prop :=
  ∀ s t : State, step s = .next t →
    match s.nextInstr with
    | .start => t.st = .started ∧ t.bitIndex = 0
    | .stop => (s.st = .started ∨ s.st = .receivingByte) ∧ t.st = .stopped ∧ t.bitIndex = s.bitIndex
    | .bitFirst _ _ => s.st = .started ∧ t.st = .receivingByte ∧ t.bitIndex = 0
    | .bitMid _ _ => s.st = .receivingByte ∧ t.st = .receivingByte ∧
        t.bitIndex.toNat = s.bitIndex.toNat + 1 ∧ t.bitIndex ≤ 6#3
    | .bitLastAddrAck _ _ => s.st = .receivingByte ∧ t.st = .started ∧ t.bitIndex = 7
    | .bitLastAddrIgnore _ _ => s.st = .receivingByte ∧ t.st = .stopped ∧ t.bitIndex = 7
    | .bitLastDataAck _ _ => s.st = .receivingByte ∧ t.st = .started ∧ t.bitIndex = 7
    | .bitLastDataNack _ _ => s.st = .receivingByte ∧ t.st = .stopped ∧ t.bitIndex = 7
    | .idle _ => t.st = s.st ∧ t.bitIndex = s.bitIndex

/-- Who writes what (the column "written by" of the state table, 10_state.md section 1): an element changes only under an
operation listed for it; the constants, the front end's registers and the environment's fields change under none. -/
def Obligations.OnlyListedOperationsWrite : Prop :=
  ∀ (i : Instr) (s t : State), exec i s = .next t →
    (t.addr = s.addr ∧ t.sampleSource = s.sampleSource ∧ t.prevData = s.prevData ∧ t.prevClock = s.prevClock ∧
      t.ticks = s.ticks ∧ t.tickNo = s.tickNo) ∧
    (match i with
      | .start => t.dir = s.dir ∧ t.jStopped = s.jStopped ∧ t.jAcked = s.jAcked ∧ t.sdaPull = s.sdaPull
      | .stop => t.dir = s.dir ∧ t.acc = s.acc ∧ t.bitIndex = s.bitIndex ∧ t.byteCount = s.byteCount ∧
          t.jStarted = s.jStarted ∧ t.jAcked = s.jAcked ∧ t.sdaPull = s.sdaPull
      | .bitFirst _ _ => t.dir = s.dir ∧ t.byteCount = s.byteCount ∧ t.jStarted = s.jStarted ∧
          t.jStopped = s.jStopped ∧ t.jAcked = s.jAcked ∧ t.sdaPull = s.sdaPull ∧ t.events = s.events
      | .bitMid _ _ => t.st = s.st ∧ t.dir = s.dir ∧ t.byteCount = s.byteCount ∧ t.jStarted = s.jStarted ∧
          t.jStopped = s.jStopped ∧ t.jAcked = s.jAcked ∧ t.sdaPull = s.sdaPull ∧ t.events = s.events
      | .bitLastAddrAck _ _ => t.jStarted = s.jStarted ∧ t.jStopped = s.jStopped
      | .bitLastAddrIgnore _ _ => t.byteCount = s.byteCount ∧ t.jStarted = s.jStarted ∧
          t.jStopped = s.jStopped ∧ t.sdaPull = s.sdaPull ∧ t.events = s.events
      | .bitLastDataAck _ _ => t.dir = s.dir ∧ t.jStarted = s.jStarted ∧ t.jStopped = s.jStopped
      | .bitLastDataNack _ _ => t.dir = s.dir ∧ t.jStarted = s.jStarted ∧ t.jStopped = s.jStopped
      | .idle _ => t.st = s.st ∧ t.dir = s.dir ∧ t.acc = s.acc ∧ t.bitIndex = s.bitIndex ∧
          t.byteCount = s.byteCount ∧ t.sdaPull = s.sdaPull ∧ t.events = s.events)

/-- The front end with two registers (30_encoding.md section 1; decision D3, log 13): old levels from the registers, new
levels from the tick, registers loaded with the new levels; both registers are 1 at reset. -/
def Obligations.InternalFrontEnd : Prop :=
  (∀ s : State, s.sampleSource = .internalRegs →
    s.currentWord = .pack s.currentTick.word.nd s.currentTick.word.nc s.prevData s.prevClock ∧
    s.takeTick.prevData = s.currentTick.word.nd ∧ s.takeTick.prevClock = s.currentTick.word.nc) ∧
  (∀ s t : State, s.sampleSource = .internalRegs → step s = .next t →
    t.currentWord.od = s.currentWord.nd ∧ t.currentWord.oc = s.currentWord.nc) ∧
  (∀ a : Address, (State.fresh a .internalRegs).prevData = true ∧ (State.fresh a .internalRegs).prevClock = true)

/-! ### Events, ports, drive -/

/-- The events of every operation, in their order (20_memory.md, order of effects; decision D24, log 21). -/
def Obligations.EventsOfEachOperation : Prop :=
  ∀ s t : State, step s = .next t →
    t.events = s.events ++
      match s.nextInstr with
      | .start => [.notify .started]
      | .stop => [.notify .stopped]
      | .bitFirst _ _ => []
      | .bitMid _ _ => []
      | .bitLastAddrAck _ _ => [.notify .started, .drive .low]
      | .bitLastAddrIgnore _ _ => []
      | .bitLastDataAck nd _ =>
          [if s.dir = .read then .readByte (insertBit s.acc 0 nd) else .writeByte (insertBit s.acc 0 nd), .drive .low]
      | .bitLastDataNack nd _ =>
          [if s.dir = .read then .readByte (insertBit s.acc 0 nd) else .writeByte (insertBit s.acc 0 nd),
            .notify .stopped, .drive .high]
      | .idle _ => []

/-- At most one event of each kind a tick, and a drive only when a byte completes (10_state.md, invariant e). -/
def Obligations.AtMostOneEventOfEachKind : Prop :=
  ∀ s t : State, step s = .next t →
    ((newEvents s t).filterMap Event.notifyPort).length ≤ 1 ∧
    ((newEvents s t).filterMap Event.bytePort).length ≤ 1 ∧
    ((newEvents s t).filterMap Event.drivePort).length ≤ 1 ∧
    ((newEvents s t).filterMap Event.drivePort ≠ [] → s.guardBitLast s.currentWord = true)

/-- `Notify(Started)` by START and ADDR_ACK, `Notify(Stopped)` by STOP and DATA_NACK, by nothing else (60_exceptions.md
section 6; decision D11, log 18). -/
def Obligations.NotificationsExactly : Prop :=
  ∀ s t : State, step s = .next t →
    (.notify .started ∈ newEvents s t ↔
      s.nextInstr = .start ∨ ∃ nd od, s.nextInstr = .bitLastAddrAck nd od) ∧
    (.notify .stopped ∈ newEvents s t ↔
      s.nextInstr = .stop ∨ ∃ nd od, s.nextInstr = .bitLastDataNack nd od)

/-- Rule R203: a byte entry point is invoked exactly once in a tick that completes a payload byte, with the completed
byte, the one the direction names, and in no other tick (so never for the address byte or a partial byte). That a byte
completes at stored `bitIndex` 6 is decision D5 (log 11). -/
def Obligations.PayloadBytesDeliveredOnce : Prop :=
  ∀ s t : State, step s = .next t →
    (newEvents s t).filterMap Event.bytePort =
      if s.guardBitLast s.currentWord = true ∧ s.byteCount ≠ 0#8 then
        [(s.dir == .read, insertBit s.acc 0 s.currentWord.nd)]
      else []

/-- Rule R165: the drive commands of the core, each at its one place, and none at reset. -/
def Obligations.DriveCommandsExactly : Prop :=
  (∀ s t : State, step s = .next t →
    (newEvents s t).filterMap Event.drivePort =
      match s.nextInstr with
      | .bitLastAddrAck _ _ => [false]
      | .bitLastDataAck _ _ => [false]
      | .bitLastDataNack _ _ => [true]
      | _ => []) ∧
  State.reset.events = []

/-- The output ports in every tick (30_encoding.md section 7; decision D1, log 22). -/
def Obligations.PortsOfEveryTick : Prop :=
  ∀ s t : State, step s = .next t →
    portsOfTick s t =
      match s.nextInstr with
      | .start => ⟨some false, none, none, s.sdaPull⟩
      | .stop => ⟨some true, none, none, s.sdaPull⟩
      | .bitFirst _ _ => ⟨none, none, none, s.sdaPull⟩
      | .bitMid _ _ => ⟨none, none, none, s.sdaPull⟩
      | .bitLastAddrAck _ _ => ⟨some false, none, some false, true⟩
      | .bitLastAddrIgnore _ _ => ⟨none, none, none, s.sdaPull⟩
      | .bitLastDataAck nd _ => ⟨none, some (s.dir.toBit, insertBit s.acc 0 nd), some false, true⟩
      | .bitLastDataNack nd _ => ⟨some true, some (s.dir.toBit, insertBit s.acc 0 nd), some true, false⟩
      | .idle _ => ⟨none, none, none, s.sdaPull⟩

/-- The latch follows the drive commands of the tick and nothing else (10_state.md section 2; decision D10, log 12), and
nothing reads it. -/
def Obligations.LatchFollowsTheTicksDrive : Prop :=
  (∀ s t : State, step s = .next t →
    t.sdaPull = if .drive .low ∈ newEvents s t then true
      else if .drive .high ∈ newEvents s t then false else s.sdaPull) ∧
  (∀ (s t : State) (p : Bool), step s = .next t →
    step { s with sdaPull := p } = .next { t with
      sdaPull := if (newEvents s t).filterMap Event.drivePort = [] then p else t.sdaPull })

/-- The error classes (60_exceptions.md section 1; decision D17, log 22): which ticks fall into each. -/
def Obligations.ErrorClassesOfTicks : Prop :=
  ∀ (s : State) (w : SampleWord) (a : Bool), s.JStoppedMeansStopped →
    (errorClass (s.decode w a) = some .mismatch ↔
      s.guardBitLast w = true ∧ s.byteCount = 0#8 ∧ s.acc.extractLsb' 1 7 ≠ s.addr) ∧
    (errorClass (s.decode w a) = some .reject ↔
      s.guardBitLast w = true ∧ s.byteCount ≠ 0#8 ∧ a = false) ∧
    (errorClass (s.decode w a) = some .malformed ↔
      (w = 0xD ∧ s.st = .stopped) ∨ (w = 0x7 ∧ s.st = .stopped ∧ s.jStopped = true))

/-! ### Rules about the machine over several ticks -/

/-- Rule R111: START as the document's tests state it, its one exception, and the mid-byte restart. That the exception holds
in Started too, where no run has `jStopped` set, is decision D15 (log 23). -/
def Obligations.StartAsTheTestsStateIt : Prop :=
  ∀ s : State, s.currentWord.startEdge = true → s.currentTick.returns = true →
    ((s.st = .stopped ∨ s.st = .started) → s.jStopped = false →
      ∃ t, step s = .next t ∧ t.st = .started ∧ t.events = s.events ++ [.notify .started]) ∧
    ((s.st = .stopped ∨ s.st = .started) → s.jStopped = true →
      ∃ t, step s = .next t ∧ t.st = s.st ∧ t.events = s.events) ∧
    (s.st = .receivingByte →
      ∃ t, step s = .next t ∧ t.st = .started ∧ t.byteCount = 0#8 ∧ t.events = s.events ++ [.notify .started])

/-- Rule R113: STOP as the document's tests state it. -/
def Obligations.StopAsTheTestsStateIt : Prop :=
  ∀ s : State, s.currentWord.stopEdge = true → s.currentTick.returns = true →
    (s.st = .started ∨ s.st = .receivingByte) →
    ∃ t, step s = .next t ∧ t.st = .stopped ∧ t.events = s.events ++ [.notify .stopped]

/-- STOP followed at once by START: every word of the next tick runs IDLE, so a START pattern there is lost, and one a tick
later is seen (40_conditions.md, the last rule). -/
def Obligations.StartRightAfterStopIsLost : Prop :=
  ∀ s t : State, s.nextInstr = .stop → step s = .next t →
    t.nextInstr = .idle t.currentWord ∧
    ∃ u, step t = .next u ∧ u.st = .stopped ∧ u.jStopped = false ∧ u.events = t.events ∧
      (u.currentWord = 0x7 → u.nextInstr = .start)

/-- The tick right after a START or an acknowledge runs IDLE unless it is a START or STOP pattern, so a clock edge in that
very tick is lost; that tick has cleared the flags, so a falling edge in the tick after it begins a byte
(41_byte_assembly.md, which falling edge begins a byte; that flags live until IDLE is decision D4, log 10). -/
def Obligations.FallingEdgeRightAfterConditionIsLost : Prop :=
  ∀ s t : State, step s = .next t →
    (s.nextInstr = .start ∨ (∃ nd od, s.nextInstr = .bitLastAddrAck nd od) ∨
      ∃ nd od, s.nextInstr = .bitLastDataAck nd od) →
    t.currentWord.startEdge = false → t.currentWord.stopEdge = false →
    t.nextInstr = .idle t.currentWord ∧
    ∃ u, step t = .next u ∧ u.st = .started ∧ u.anyFlag = false ∧ u.events = t.events ∧
      (u.currentWord.clkFall = true → u.nextInstr = .bitFirst u.currentWord.nd u.currentWord.od)

/-- A flag set at the entry of a tick is gone after it, unless the tick runs START or STOP; `jStopped` is gone unless the
tick runs STOP (43_idle.md, lifetime of the flags; 10_state.md, invariant b). The premises are two of the invariants that
`StepKeepsInvariants` states. -/
def Obligations.FlagsEndAtTheFirstOtherTick : Prop :=
  ∀ s t : State, s.ReceivingIsClean → s.JStoppedMeansStopped → step s = .next t →
    (s.anyFlag = true → s.nextInstr ≠ .start → s.nextInstr ≠ .stop → t.anyFlag = false) ∧
    (s.jStopped = true → t.anyFlag = false)

/-- A tick with no change on either line runs IDLE: the protocol state, the events and the latch stay, and delivering it
twice is delivering it once (20_memory.md, idempotence of idle ticks). -/
def Obligations.UnchangedLinesAreIdempotent : Prop :=
  ∀ s : State, s.currentWord.nd = s.currentWord.od → s.currentWord.nc = s.currentWord.oc →
    ∃ t, step s = .next t ∧ t.st = s.st ∧ t.events = s.events ∧ t.sdaPull = s.sdaPull ∧
      (t.currentWord = s.currentWord → step t = .next t.takeTick)

/-- Only a recognised START leaves Stopped; a STOP pattern in Stopped is an IDLE; a START inside a transaction begins a new
one (rule R197). That the tick right after a STOP stays in Stopped whatever its word is decision D4 (log 10). -/
def Obligations.OnlyStartLeavesStopped : Prop :=
  (∀ s t : State, s.st = .stopped → step s = .next t → t.st ≠ .stopped → s.nextInstr = .start) ∧
  (∀ (s : State) (a : Bool), s.st = .stopped → s.decode 0xD a = .idle 0xD) ∧
  (∀ (s : State) (a : Bool), s.st = .receivingByte ∨ (s.st = .started ∧ s.jStopped = false) →
    s.decode 0x7 a = .start ∧ ∃ t, exec .start s = .next t ∧ t.st = .started ∧ t.byteCount = 0#8) ∧
  (∀ s t u : State, s.nextInstr = .stop → step s = .next t → step t = .next u →
    u.st = .stopped ∧ (∀ a, u.decode 0x7 a = .start))

/-- Rule R192: an address that is not this device's makes no event, no notification, no drive, and no fault. That the latch
keeps its value is decision D10 (log 12), the silence towards the provider decision D11 (log 18). -/
def Obligations.AddressMismatchIsNoError : Prop :=
  ∀ s : State, s.guardBitLast s.currentWord = true → s.byteCount = 0#8 → s.acc.extractLsb' 1 7 ≠ s.addr →
    ∃ t, step s = .next t ∧ t.st = .stopped ∧ t.events = s.events ∧ t.sdaPull = s.sdaPull ∧
      (t.currentWord ≠ 0x7 → t.nextInstr = .idle t.currentWord)

/-- Rule R193: a rejected byte aborts the transaction, and the decoder keeps running and accepts the next START. The premise
is one of the invariants that `StepKeepsInvariants` states. -/
def Obligations.RejectedByteDoesNotStopTheMachine : Prop :=
  ∀ s : State, s.ReceivingIsClean → s.guardBitLast s.currentWord = true → s.byteCount ≠ 0#8 → s.accept = false →
    s.currentTick.returns = true →
    ∃ t, step s = .next t ∧ t.st = .stopped ∧ .drive .high ∈ newEvents s t ∧
      (t.currentWord = 0x7 → t.nextInstr = .start)

/-- The byte count moves only when a byte completes (or a START clears it), never back to 0 without a START, and never
down (10_state.md sections 2 and 3; the saturation is decision D8, log 9). -/
def Obligations.CountMovesOnlyOnCompletion : Prop :=
  ∀ s t : State, step s = .next t → s.nextInstr ≠ .start →
    (t.byteCount ≠ s.byteCount → s.guardBitLast s.currentWord = true) ∧
    s.byteCount ≤ t.byteCount ∧ t.byteCount.toNat ≤ s.byteCount.toNat + 1

/-- Rule R87: eight captures spell the byte in order of arrival, and a completed first byte splits into address and
direction. -/
def Obligations.EightCapturesSpellTheByte : Prop :=
  ∀ (s s0 s1 s2 s3 s4 s5 s6 t : State) (b0 b1 b2 b3 b4 b5 b6 b7 o : Bool) (last : Instr),
    exec (.bitFirst b0 o) s = .next s0 → exec (.bitMid b1 o) s0 = .next s1 → exec (.bitMid b2 o) s1 = .next s2 →
    exec (.bitMid b3 o) s2 = .next s3 → exec (.bitMid b4 o) s3 = .next s4 → exec (.bitMid b5 o) s4 = .next s5 →
    exec (.bitMid b6 o) s5 = .next s6 →
    last ∈ [Instr.bitLastAddrAck b7 o, .bitLastAddrIgnore b7 o, .bitLastDataAck b7 o, .bitLastDataNack b7 o] →
    exec last s6 = .next t →
    (t.acc.getLsbD 7 = b0 ∧ t.acc.getLsbD 6 = b1 ∧ t.acc.getLsbD 5 = b2 ∧ t.acc.getLsbD 4 = b3 ∧
      t.acc.getLsbD 3 = b4 ∧ t.acc.getLsbD 2 = b5 ∧ t.acc.getLsbD 1 = b6 ∧ t.acc.getLsbD 0 = b7) ∧
    (extractAddress t.acc).toNat = bitsValue [b0, b1, b2, b3, b4, b5, b6] ∧
    extractDirection t.acc = (if b7 then .read else .write)

/-! ### Invariants, what an output can depend on, the frame of a byte -/

/-- The invariants hold at reset, for every address and either sample source. -/
def Obligations.FreshStateMeetsInvariants : Prop :=
  (∀ (a : Address) (src : SampleSource), (State.fresh a src).Inv) ∧ State.reset.Inv

/-- Every step keeps the invariants (10_state.md section 3, items a, b, f, g, and 41_byte_assembly.md on the positions not
yet captured). -/
def Obligations.StepKeepsInvariants : Prop :=
  ∀ s t : State, s.Inv → step s = .next t → t.Inv

/-- In Stopped only START or IDLE can fire (10_state.md, invariant c). -/
def Obligations.StoppedRunsOnlyStartOrIdle : Prop :=
  ∀ (s : State) (w : SampleWord) (a : Bool), s.st = .stopped → s.decode w a = .start ∨ s.decode w a = .idle w

/-- No read before write: what a state holds in elements that nothing may read yet never shows in any event or protocol
state, now or later. Two states that agree on the rest step to states that agree, or stop alike; and states that differ
only in those elements agree. (10_state.md sections 2 and 5.) -/
def Obligations.UnreadElementsAreUnobservable : Prop :=
  (∀ s t : State, s.Agree t → outcomesAgree (step s) (step t)) ∧
  (∀ (s : State) (d : Direction) (b : Byte) (k : BitIndex) (n : ByteCount) (p : Bool), s.st = .stopped →
    s.Agree { s with dir := d, acc := b, bitIndex := k, byteCount := n, sdaPull := p }) ∧
  (∀ (s : State) (b : Byte) (k : BitIndex) (p : Bool), s.st = .started →
    s.Agree { s with acc := b, bitIndex := k, sdaPull := p })

/-- The serial byte frame: a byte that begins with BIT_FIRST and completes after any mixture of IDLE ticks and BIT_MID ticks
has exactly six bits in between, its eight bits in order of arrival are the accumulator, and a payload byte is handed over
with that value (30_encoding.md section 2; that it completes at the eighth capture is decision D5, log 11). -/
def Obligations.SerialFrameSpellsTheByte : Prop :=
  ∀ (s s1 t u : State) (b0 o0 b7 o7 : Bool) (bits : List Bool),
    s.nextInstr = .bitFirst b0 o0 → step s = .next s1 → CaptureRun s1 bits t →
    t.nextInstr ∈ [Instr.bitLastAddrAck b7 o7, .bitLastAddrIgnore b7 o7, .bitLastDataAck b7 o7, .bitLastDataNack b7 o7] →
    step t = .next u →
    bits.length = 6 ∧
    u.acc = BitVec.ofNat 8 (bitsValue (b0 :: bits ++ [b7])) ∧
    (newEvents s u).filterMap Event.bytePort =
      if s.byteCount = 0#8 then []
      else [(s.dir.toBit, BitVec.ofNat 8 (bitsValue (b0 :: bits ++ [b7])))]
end

