-- ==== Sys2Proof/Laws/State.lean ====
section
/-! SUPPORT. One lemma per field per named update, so that no proof unfolds a record update. The two registers of the front
end after `takeTick` are in Laws/Ops.lean. -/

namespace Sys2Proof.Machine

variable (s : State)

@[simp] theorem State.clearFlags_st : s.clearFlags.st = s.st := rfl
@[simp] theorem State.clearFlags_dir : s.clearFlags.dir = s.dir := rfl
@[simp] theorem State.clearFlags_acc : s.clearFlags.acc = s.acc := rfl
@[simp] theorem State.clearFlags_bitIndex : s.clearFlags.bitIndex = s.bitIndex := rfl
@[simp] theorem State.clearFlags_byteCount : s.clearFlags.byteCount = s.byteCount := rfl
@[simp] theorem State.clearFlags_jStarted : s.clearFlags.jStarted = false := rfl
@[simp] theorem State.clearFlags_jStopped : s.clearFlags.jStopped = false := rfl
@[simp] theorem State.clearFlags_jAcked : s.clearFlags.jAcked = false := rfl
@[simp] theorem State.clearFlags_sdaPull : s.clearFlags.sdaPull = s.sdaPull := rfl
@[simp] theorem State.clearFlags_addr : s.clearFlags.addr = s.addr := rfl
@[simp] theorem State.clearFlags_sampleSource : s.clearFlags.sampleSource = s.sampleSource := rfl
@[simp] theorem State.clearFlags_prevData : s.clearFlags.prevData = s.prevData := rfl
@[simp] theorem State.clearFlags_prevClock : s.clearFlags.prevClock = s.prevClock := rfl
@[simp] theorem State.clearFlags_ticks : s.clearFlags.ticks = s.ticks := rfl
@[simp] theorem State.clearFlags_tickNo : s.clearFlags.tickNo = s.tickNo := rfl
@[simp] theorem State.clearFlags_events : s.clearFlags.events = s.events := rfl

@[simp] theorem State.emit_st (e : Event) : (s.emit e).st = s.st := rfl
@[simp] theorem State.emit_dir (e : Event) : (s.emit e).dir = s.dir := rfl
@[simp] theorem State.emit_acc (e : Event) : (s.emit e).acc = s.acc := rfl
@[simp] theorem State.emit_bitIndex (e : Event) : (s.emit e).bitIndex = s.bitIndex := rfl
@[simp] theorem State.emit_byteCount (e : Event) : (s.emit e).byteCount = s.byteCount := rfl
@[simp] theorem State.emit_jStarted (e : Event) : (s.emit e).jStarted = s.jStarted := rfl
@[simp] theorem State.emit_jStopped (e : Event) : (s.emit e).jStopped = s.jStopped := rfl
@[simp] theorem State.emit_jAcked (e : Event) : (s.emit e).jAcked = s.jAcked := rfl
@[simp] theorem State.emit_sdaPull (e : Event) : (s.emit e).sdaPull = s.sdaPull := rfl
@[simp] theorem State.emit_addr (e : Event) : (s.emit e).addr = s.addr := rfl
@[simp] theorem State.emit_sampleSource (e : Event) : (s.emit e).sampleSource = s.sampleSource := rfl
@[simp] theorem State.emit_prevData (e : Event) : (s.emit e).prevData = s.prevData := rfl
@[simp] theorem State.emit_prevClock (e : Event) : (s.emit e).prevClock = s.prevClock := rfl
@[simp] theorem State.emit_ticks (e : Event) : (s.emit e).ticks = s.ticks := rfl
@[simp] theorem State.emit_tickNo (e : Event) : (s.emit e).tickNo = s.tickNo := rfl
@[simp] theorem State.emit_events (e : Event) : (s.emit e).events = s.events ++ [e] := rfl

@[simp] theorem State.driveLow_st : s.driveLow.st = s.st := rfl
@[simp] theorem State.driveLow_dir : s.driveLow.dir = s.dir := rfl
@[simp] theorem State.driveLow_acc : s.driveLow.acc = s.acc := rfl
@[simp] theorem State.driveLow_bitIndex : s.driveLow.bitIndex = s.bitIndex := rfl
@[simp] theorem State.driveLow_byteCount : s.driveLow.byteCount = s.byteCount := rfl
@[simp] theorem State.driveLow_jStarted : s.driveLow.jStarted = s.jStarted := rfl
@[simp] theorem State.driveLow_jStopped : s.driveLow.jStopped = s.jStopped := rfl
@[simp] theorem State.driveLow_jAcked : s.driveLow.jAcked = s.jAcked := rfl
@[simp] theorem State.driveLow_sdaPull : s.driveLow.sdaPull = true := rfl
@[simp] theorem State.driveLow_addr : s.driveLow.addr = s.addr := rfl
@[simp] theorem State.driveLow_sampleSource : s.driveLow.sampleSource = s.sampleSource := rfl
@[simp] theorem State.driveLow_prevData : s.driveLow.prevData = s.prevData := rfl
@[simp] theorem State.driveLow_prevClock : s.driveLow.prevClock = s.prevClock := rfl
@[simp] theorem State.driveLow_ticks : s.driveLow.ticks = s.ticks := rfl
@[simp] theorem State.driveLow_tickNo : s.driveLow.tickNo = s.tickNo := rfl
@[simp] theorem State.driveLow_events : s.driveLow.events = s.events ++ [.drive .low] := rfl

@[simp] theorem State.driveHigh_st : s.driveHigh.st = s.st := rfl
@[simp] theorem State.driveHigh_dir : s.driveHigh.dir = s.dir := rfl
@[simp] theorem State.driveHigh_acc : s.driveHigh.acc = s.acc := rfl
@[simp] theorem State.driveHigh_bitIndex : s.driveHigh.bitIndex = s.bitIndex := rfl
@[simp] theorem State.driveHigh_byteCount : s.driveHigh.byteCount = s.byteCount := rfl
@[simp] theorem State.driveHigh_jStarted : s.driveHigh.jStarted = s.jStarted := rfl
@[simp] theorem State.driveHigh_jStopped : s.driveHigh.jStopped = s.jStopped := rfl
@[simp] theorem State.driveHigh_jAcked : s.driveHigh.jAcked = s.jAcked := rfl
@[simp] theorem State.driveHigh_sdaPull : s.driveHigh.sdaPull = false := rfl
@[simp] theorem State.driveHigh_addr : s.driveHigh.addr = s.addr := rfl
@[simp] theorem State.driveHigh_sampleSource : s.driveHigh.sampleSource = s.sampleSource := rfl
@[simp] theorem State.driveHigh_prevData : s.driveHigh.prevData = s.prevData := rfl
@[simp] theorem State.driveHigh_prevClock : s.driveHigh.prevClock = s.prevClock := rfl
@[simp] theorem State.driveHigh_ticks : s.driveHigh.ticks = s.ticks := rfl
@[simp] theorem State.driveHigh_tickNo : s.driveHigh.tickNo = s.tickNo := rfl
@[simp] theorem State.driveHigh_events : s.driveHigh.events = s.events ++ [.drive .high] := rfl

@[simp] theorem State.captureFirst_st (b : Bool) : (s.captureFirst b).st = s.st := rfl
@[simp] theorem State.captureFirst_dir (b : Bool) : (s.captureFirst b).dir = s.dir := rfl
@[simp] theorem State.captureFirst_acc (b : Bool) : (s.captureFirst b).acc = firstBitByte b := rfl
@[simp] theorem State.captureFirst_bitIndex (b : Bool) : (s.captureFirst b).bitIndex = 0 := rfl
@[simp] theorem State.captureFirst_byteCount (b : Bool) : (s.captureFirst b).byteCount = s.byteCount := rfl
@[simp] theorem State.captureFirst_jStarted (b : Bool) : (s.captureFirst b).jStarted = s.jStarted := rfl
@[simp] theorem State.captureFirst_jStopped (b : Bool) : (s.captureFirst b).jStopped = s.jStopped := rfl
@[simp] theorem State.captureFirst_jAcked (b : Bool) : (s.captureFirst b).jAcked = s.jAcked := rfl
@[simp] theorem State.captureFirst_sdaPull (b : Bool) : (s.captureFirst b).sdaPull = s.sdaPull := rfl
@[simp] theorem State.captureFirst_addr (b : Bool) : (s.captureFirst b).addr = s.addr := rfl
@[simp] theorem State.captureFirst_sampleSource (b : Bool) : (s.captureFirst b).sampleSource = s.sampleSource := rfl
@[simp] theorem State.captureFirst_prevData (b : Bool) : (s.captureFirst b).prevData = s.prevData := rfl
@[simp] theorem State.captureFirst_prevClock (b : Bool) : (s.captureFirst b).prevClock = s.prevClock := rfl
@[simp] theorem State.captureFirst_ticks (b : Bool) : (s.captureFirst b).ticks = s.ticks := rfl
@[simp] theorem State.captureFirst_tickNo (b : Bool) : (s.captureFirst b).tickNo = s.tickNo := rfl
@[simp] theorem State.captureFirst_events (b : Bool) : (s.captureFirst b).events = s.events := rfl

@[simp] theorem State.captureNext_st (b : Bool) : (s.captureNext b).st = s.st := rfl
@[simp] theorem State.captureNext_dir (b : Bool) : (s.captureNext b).dir = s.dir := rfl
@[simp] theorem State.captureNext_acc (b : Bool) : (s.captureNext b).acc = insertBit s.acc (7 - (s.bitIndex.toNat + 1)) b := rfl
@[simp] theorem State.captureNext_bitIndex (b : Bool) : (s.captureNext b).bitIndex = s.bitIndex + 1 := rfl
@[simp] theorem State.captureNext_byteCount (b : Bool) : (s.captureNext b).byteCount = s.byteCount := rfl
@[simp] theorem State.captureNext_jStarted (b : Bool) : (s.captureNext b).jStarted = s.jStarted := rfl
@[simp] theorem State.captureNext_jStopped (b : Bool) : (s.captureNext b).jStopped = s.jStopped := rfl
@[simp] theorem State.captureNext_jAcked (b : Bool) : (s.captureNext b).jAcked = s.jAcked := rfl
@[simp] theorem State.captureNext_sdaPull (b : Bool) : (s.captureNext b).sdaPull = s.sdaPull := rfl
@[simp] theorem State.captureNext_addr (b : Bool) : (s.captureNext b).addr = s.addr := rfl
@[simp] theorem State.captureNext_sampleSource (b : Bool) : (s.captureNext b).sampleSource = s.sampleSource := rfl
@[simp] theorem State.captureNext_prevData (b : Bool) : (s.captureNext b).prevData = s.prevData := rfl
@[simp] theorem State.captureNext_prevClock (b : Bool) : (s.captureNext b).prevClock = s.prevClock := rfl
@[simp] theorem State.captureNext_ticks (b : Bool) : (s.captureNext b).ticks = s.ticks := rfl
@[simp] theorem State.captureNext_tickNo (b : Bool) : (s.captureNext b).tickNo = s.tickNo := rfl
@[simp] theorem State.captureNext_events (b : Bool) : (s.captureNext b).events = s.events := rfl

@[simp] theorem State.captureLast_st (b : Bool) : (s.captureLast b).st = s.st := rfl
@[simp] theorem State.captureLast_dir (b : Bool) : (s.captureLast b).dir = s.dir := rfl
@[simp] theorem State.captureLast_acc (b : Bool) : (s.captureLast b).acc = insertBit s.acc 0 b := rfl
@[simp] theorem State.captureLast_bitIndex (b : Bool) : (s.captureLast b).bitIndex = 7 := rfl
@[simp] theorem State.captureLast_byteCount (b : Bool) : (s.captureLast b).byteCount = s.byteCount := rfl
@[simp] theorem State.captureLast_jStarted (b : Bool) : (s.captureLast b).jStarted = s.jStarted := rfl
@[simp] theorem State.captureLast_jStopped (b : Bool) : (s.captureLast b).jStopped = s.jStopped := rfl
@[simp] theorem State.captureLast_jAcked (b : Bool) : (s.captureLast b).jAcked = s.jAcked := rfl
@[simp] theorem State.captureLast_sdaPull (b : Bool) : (s.captureLast b).sdaPull = s.sdaPull := rfl
@[simp] theorem State.captureLast_addr (b : Bool) : (s.captureLast b).addr = s.addr := rfl
@[simp] theorem State.captureLast_sampleSource (b : Bool) : (s.captureLast b).sampleSource = s.sampleSource := rfl
@[simp] theorem State.captureLast_prevData (b : Bool) : (s.captureLast b).prevData = s.prevData := rfl
@[simp] theorem State.captureLast_prevClock (b : Bool) : (s.captureLast b).prevClock = s.prevClock := rfl
@[simp] theorem State.captureLast_ticks (b : Bool) : (s.captureLast b).ticks = s.ticks := rfl
@[simp] theorem State.captureLast_tickNo (b : Bool) : (s.captureLast b).tickNo = s.tickNo := rfl
@[simp] theorem State.captureLast_events (b : Bool) : (s.captureLast b).events = s.events := rfl

@[simp] theorem State.deliverByte_st : s.deliverByte.st = s.st := rfl
@[simp] theorem State.deliverByte_dir : s.deliverByte.dir = s.dir := rfl
@[simp] theorem State.deliverByte_acc : s.deliverByte.acc = s.acc := rfl
@[simp] theorem State.deliverByte_bitIndex : s.deliverByte.bitIndex = s.bitIndex := rfl
@[simp] theorem State.deliverByte_byteCount : s.deliverByte.byteCount = s.byteCount := rfl
@[simp] theorem State.deliverByte_jStarted : s.deliverByte.jStarted = s.jStarted := rfl
@[simp] theorem State.deliverByte_jStopped : s.deliverByte.jStopped = s.jStopped := rfl
@[simp] theorem State.deliverByte_jAcked : s.deliverByte.jAcked = s.jAcked := rfl
@[simp] theorem State.deliverByte_sdaPull : s.deliverByte.sdaPull = s.sdaPull := rfl
@[simp] theorem State.deliverByte_addr : s.deliverByte.addr = s.addr := rfl
@[simp] theorem State.deliverByte_sampleSource : s.deliverByte.sampleSource = s.sampleSource := rfl
@[simp] theorem State.deliverByte_prevData : s.deliverByte.prevData = s.prevData := rfl
@[simp] theorem State.deliverByte_prevClock : s.deliverByte.prevClock = s.prevClock := rfl
@[simp] theorem State.deliverByte_ticks : s.deliverByte.ticks = s.ticks := rfl
@[simp] theorem State.deliverByte_tickNo : s.deliverByte.tickNo = s.tickNo := rfl
@[simp] theorem State.deliverByte_events : s.deliverByte.events = s.events ++ [s.byteEvent] := rfl

@[simp] theorem State.countByte_st : s.countByte.st = s.st := rfl
@[simp] theorem State.countByte_dir : s.countByte.dir = s.dir := rfl
@[simp] theorem State.countByte_acc : s.countByte.acc = s.acc := rfl
@[simp] theorem State.countByte_bitIndex : s.countByte.bitIndex = s.bitIndex := rfl
@[simp] theorem State.countByte_byteCount : s.countByte.byteCount = countUp s.byteCount := rfl
@[simp] theorem State.countByte_jStarted : s.countByte.jStarted = s.jStarted := rfl
@[simp] theorem State.countByte_jStopped : s.countByte.jStopped = s.jStopped := rfl
@[simp] theorem State.countByte_jAcked : s.countByte.jAcked = s.jAcked := rfl
@[simp] theorem State.countByte_sdaPull : s.countByte.sdaPull = s.sdaPull := rfl
@[simp] theorem State.countByte_addr : s.countByte.addr = s.addr := rfl
@[simp] theorem State.countByte_sampleSource : s.countByte.sampleSource = s.sampleSource := rfl
@[simp] theorem State.countByte_prevData : s.countByte.prevData = s.prevData := rfl
@[simp] theorem State.countByte_prevClock : s.countByte.prevClock = s.prevClock := rfl
@[simp] theorem State.countByte_ticks : s.countByte.ticks = s.ticks := rfl
@[simp] theorem State.countByte_tickNo : s.countByte.tickNo = s.tickNo := rfl
@[simp] theorem State.countByte_events : s.countByte.events = s.events := rfl

@[simp] theorem State.setAcked_st : s.setAcked.st = s.st := rfl
@[simp] theorem State.setAcked_dir : s.setAcked.dir = s.dir := rfl
@[simp] theorem State.setAcked_acc : s.setAcked.acc = s.acc := rfl
@[simp] theorem State.setAcked_bitIndex : s.setAcked.bitIndex = s.bitIndex := rfl
@[simp] theorem State.setAcked_byteCount : s.setAcked.byteCount = s.byteCount := rfl
@[simp] theorem State.setAcked_jStarted : s.setAcked.jStarted = s.jStarted := rfl
@[simp] theorem State.setAcked_jStopped : s.setAcked.jStopped = s.jStopped := rfl
@[simp] theorem State.setAcked_jAcked : s.setAcked.jAcked = true := rfl
@[simp] theorem State.setAcked_sdaPull : s.setAcked.sdaPull = s.sdaPull := rfl
@[simp] theorem State.setAcked_addr : s.setAcked.addr = s.addr := rfl
@[simp] theorem State.setAcked_sampleSource : s.setAcked.sampleSource = s.sampleSource := rfl
@[simp] theorem State.setAcked_prevData : s.setAcked.prevData = s.prevData := rfl
@[simp] theorem State.setAcked_prevClock : s.setAcked.prevClock = s.prevClock := rfl
@[simp] theorem State.setAcked_ticks : s.setAcked.ticks = s.ticks := rfl
@[simp] theorem State.setAcked_tickNo : s.setAcked.tickNo = s.tickNo := rfl
@[simp] theorem State.setAcked_events : s.setAcked.events = s.events := rfl

@[simp] theorem State.takeTick_st : s.takeTick.st = s.st := rfl
@[simp] theorem State.takeTick_dir : s.takeTick.dir = s.dir := rfl
@[simp] theorem State.takeTick_acc : s.takeTick.acc = s.acc := rfl
@[simp] theorem State.takeTick_bitIndex : s.takeTick.bitIndex = s.bitIndex := rfl
@[simp] theorem State.takeTick_byteCount : s.takeTick.byteCount = s.byteCount := rfl
@[simp] theorem State.takeTick_jStarted : s.takeTick.jStarted = s.jStarted := rfl
@[simp] theorem State.takeTick_jStopped : s.takeTick.jStopped = s.jStopped := rfl
@[simp] theorem State.takeTick_jAcked : s.takeTick.jAcked = s.jAcked := rfl
@[simp] theorem State.takeTick_sdaPull : s.takeTick.sdaPull = s.sdaPull := rfl
@[simp] theorem State.takeTick_addr : s.takeTick.addr = s.addr := rfl
@[simp] theorem State.takeTick_sampleSource : s.takeTick.sampleSource = s.sampleSource := rfl
@[simp] theorem State.takeTick_ticks : s.takeTick.ticks = s.ticks.tail := rfl
@[simp] theorem State.takeTick_tickNo : s.takeTick.tickNo = s.tickNo + 1 := rfl
@[simp] theorem State.takeTick_events : s.takeTick.events = s.events := rfl

end Sys2Proof.Machine
end

