-- ==== Sys2Proof/Laws/Ops.lean ====
section
/-! SUPPORT. What each shared operation can do, said once: the tick taken from the environment, bit insertion, the byte
count, the address framing. -/

namespace Sys2Proof.Machine

/-! ### Taking a tick -/

theorem State.currentTick_cons {s : State} {t : Tick} {ts : List Tick} (h : s.ticks = t :: ts) :
    s.currentTick = t := by
  simp [State.currentTick, h]

theorem State.currentTick_nil {s : State} (h : s.ticks = []) :
    s.currentTick = { word := Config.freeWord s.tickNo, answer := none, returns := true } := by
  simp [State.currentTick, h]

theorem State.currentWord_external {s : State} (h : s.sampleSource = .external) :
    s.currentWord = s.currentTick.word := by
  simp [State.currentWord, h]

theorem State.currentWord_internalRegs {s : State} (h : s.sampleSource = .internalRegs) :
    s.currentWord = .pack s.currentTick.word.nd s.currentTick.word.nc s.prevData s.prevClock := by
  simp [State.currentWord, h]

theorem State.accept_answered {s : State} {b : Bool} (h : s.currentTick.answer = some b) : s.accept = b := by
  simp [State.accept, h]

theorem State.takeTick_prev_external {s : State} (h : s.sampleSource = .external) :
    s.takeTick.prevData = s.prevData ∧ s.takeTick.prevClock = s.prevClock := by
  simp [State.takeTick, h]

theorem State.takeTick_prev_internalRegs {s : State} (h : s.sampleSource = .internalRegs) :
    s.takeTick.prevData = s.currentWord.nd ∧ s.takeTick.prevClock = s.currentWord.nc := by
  simp [State.takeTick, h]

/-- The byte entry point depends on the direction and the accumulator alone. -/
theorem State.byteEvent_eq (s : State) :
    s.byteEvent = if s.dir = .read then .readByte s.acc else .writeByte s.acc := by
  cases h : s.dir <;> simp [State.byteEvent, h]

/-! ### Bits of a byte -/

theorem insertBit_getLsbD (acc : Byte) (p : Nat) (b : Bool) (q : Nat) (hq : q < 8) :
    (insertBit acc p b).getLsbD q = if q = p then b else acc.getLsbD q := by
  simp only [insertBit, BitVec.getLsbD_or, BitVec.getLsbD_and, BitVec.getLsbD_not, BitVec.getLsbD_shiftLeft,
    BitVec.getLsbD_setWidth, BitVec.getLsbD_ofBool, hq, decide_true, Bool.true_and, BitVec.getLsbD_one]
  rcases Nat.lt_trichotomy q p with h | h | h
  · simp [h, Nat.ne_of_lt h]
  · subst h
    simp
  · have h0 : q - p ≠ 0 := by omega
    have h1 : ¬ q < p := by omega
    simp [h0, h1, Nat.ne_of_gt h]

/-- The eighth bit does not touch the address (42_address_ack.md rule R151). -/
theorem extractAddress_insertBit_zero (acc : Byte) (b : Bool) :
    extractAddress (insertBit acc 0 b) = acc.extractLsb' 1 7 := by
  revert acc b
  decide

/-- The eighth bit is the direction (42_address_ack.md rule R150). -/
theorem extractDirection_insertBit_zero (acc : Byte) (b : Bool) :
    extractDirection (insertBit acc 0 b) = .ofBit b := by
  rw [extractDirection, insertBit_getLsbD acc 0 b 0 (by decide)]
  rfl

theorem firstBitByte_eq (b : Bool) : firstBitByte b = if b then 0x80 else 0x00 := by
  cases b <;> rfl

/-! ### The byte count -/

theorem countUp_ne_zero (n : ByteCount) : countUp n ≠ 0#8 := by
  revert n
  decide

theorem le_countUp (n : ByteCount) : n ≤ countUp n := by
  revert n
  decide

theorem countUp_toNat_le (n : ByteCount) : (countUp n).toNat ≤ n.toNat + 1 := by
  revert n
  decide

theorem countUp_eq (n : ByteCount) : countUp n = if n = 255 then 255 else n + 1 := by
  revert n
  decide

/-! ### Events of a tick and the ports they show at -/

@[simp] theorem Event.notifyPort_notify (k : NotifyKind) : Event.notifyPort (.notify k) = some k.code := rfl
@[simp] theorem Event.bytePort_notify (k : NotifyKind) : Event.bytePort (.notify k) = none := rfl
@[simp] theorem Event.drivePort_notify (k : NotifyKind) : Event.drivePort (.notify k) = none := rfl

@[simp] theorem Event.notifyPort_writeByte (b : Byte) : Event.notifyPort (.writeByte b) = none := rfl
@[simp] theorem Event.bytePort_writeByte (b : Byte) : Event.bytePort (.writeByte b) = some (false, b) := rfl
@[simp] theorem Event.drivePort_writeByte (b : Byte) : Event.drivePort (.writeByte b) = none := rfl

@[simp] theorem Event.notifyPort_readByte (b : Byte) : Event.notifyPort (.readByte b) = none := rfl
@[simp] theorem Event.bytePort_readByte (b : Byte) : Event.bytePort (.readByte b) = some (true, b) := rfl
@[simp] theorem Event.drivePort_readByte (b : Byte) : Event.drivePort (.readByte b) = none := rfl

@[simp] theorem Event.notifyPort_drive (l : Level) : Event.notifyPort (.drive l) = none := rfl
@[simp] theorem Event.bytePort_drive (l : Level) : Event.bytePort (.drive l) = none := rfl
@[simp] theorem Event.drivePort_drive (l : Level) : Event.drivePort (.drive l) = some l.code := rfl

theorem newEvents_append {s t : State} {es : List Event} (h : t.events = s.events ++ es) : newEvents s t = es := by
  simp [newEvents, h]

end Sys2Proof.Machine
end

