-- ==== Sys2Proof/Laws/Decode.lean ====
section
/-! SUPPORT. The decode taken apart once: the words of the four edges, the guards as propositions, and every operation a
decode can answer with the guard it then passed. -/

namespace Sys2Proof

@[simp] theorem SampleWord.startEdge_iff (w : SampleWord) : w.startEdge = true ↔ w = 0x7 := by
  revert w
  decide

@[simp] theorem SampleWord.stopEdge_iff (w : SampleWord) : w.stopEdge = true ↔ w = 0xD := by
  revert w
  decide

/-- A falling clock edge is exactly a word that packs as BIT_FIRST's row. -/
theorem SampleWord.clkFall_iff (w : SampleWord) : w.clkFall = true ↔ w = .pack w.nd false w.od true := by
  revert w
  decide

/-- A rising clock edge is exactly a word that packs as the clkRise rows. -/
theorem SampleWord.clkRise_iff (w : SampleWord) : w.clkRise = true ↔ w = .pack w.nd true w.od false := by
  revert w
  decide

@[simp] theorem SampleWord.pack_nd (nd nc od oc : Bool) : (SampleWord.pack nd nc od oc).nd = nd := by
  revert nd nc od oc
  decide

@[simp] theorem SampleWord.pack_nc (nd nc od oc : Bool) : (SampleWord.pack nd nc od oc).nc = nc := by
  revert nd nc od oc
  decide

@[simp] theorem SampleWord.pack_od (nd nc od oc : Bool) : (SampleWord.pack nd nc od oc).od = od := by
  revert nd nc od oc
  decide

@[simp] theorem SampleWord.pack_oc (nd nc od oc : Bool) : (SampleWord.pack nd nc od oc).oc = oc := by
  revert nd nc od oc
  decide

namespace Machine

theorem State.guardStart_iff (s : State) (w : SampleWord) :
    s.guardStart w = true ↔
      w = 0x7 ∧ (((s.st = .stopped ∨ s.st = .started) ∧ s.jStopped = false) ∨ s.st = .receivingByte) := by
  simp [State.guardStart]

theorem State.guardStop_iff (s : State) (w : SampleWord) :
    s.guardStop w = true ↔ w = 0xD ∧ (s.st = .started ∨ s.st = .receivingByte) := by
  simp [State.guardStop]

theorem State.guardBitFirst_iff (s : State) (w : SampleWord) :
    s.guardBitFirst w = true ↔
      s.st = .started ∧ (s.jStarted = false ∧ s.jStopped = false ∧ s.jAcked = false) ∧ w.clkFall = true := by
  simp [State.guardBitFirst, State.anyFlag, and_assoc]

theorem State.guardBitMid_iff (s : State) (w : SampleWord) :
    s.guardBitMid w = true ↔ s.st = .receivingByte ∧ w.clkRise = true ∧ s.bitIndex ≤ 5#3 := by
  simp [State.guardBitMid, and_assoc]

theorem State.guardBitLast_iff (s : State) (w : SampleWord) :
    s.guardBitLast w = true ↔ s.st = .receivingByte ∧ w.clkRise = true ∧ s.bitIndex = 6#3 := by
  simp [State.guardBitLast, and_assoc]

/-- Every answer of the decode, with the guard the tick then passed. -/
theorem State.decode_cases (s : State) (w : SampleWord) (a : Bool) :
    (s.guardStart w = true ∧ s.decode w a = .start) ∨
    (s.guardStop w = true ∧ s.decode w a = .stop) ∨
    (s.guardBitFirst w = true ∧ s.decode w a = .bitFirst w.nd w.od) ∨
    (s.guardBitMid w = true ∧ s.decode w a = .bitMid w.nd w.od) ∨
    (s.guardBitLast w = true ∧ s.decode w a = s.completion w.nd w.od a) ∨
    (s.guardStart w = false ∧ s.guardStop w = false ∧ s.guardBitFirst w = false ∧ s.guardBitMid w = false ∧
      s.guardBitLast w = false ∧ s.decode w a = .idle w) := by
  unfold State.decode
  cases h1 : s.guardStart w <;> cases h2 : s.guardStop w <;> cases h3 : s.guardBitFirst w <;>
    cases h4 : s.guardBitMid w <;> cases h5 : s.guardBitLast w <;> simp

/-- Every outcome of a completion, with its condition. -/
theorem State.completion_cases (s : State) (nd od a : Bool) :
    (s.byteCount = 0#8 ∧ s.acc.extractLsb' 1 7 = s.addr ∧ s.completion nd od a = .bitLastAddrAck nd od) ∨
    (s.byteCount = 0#8 ∧ s.acc.extractLsb' 1 7 ≠ s.addr ∧ s.completion nd od a = .bitLastAddrIgnore nd od) ∨
    (s.byteCount ≠ 0#8 ∧ a = true ∧ s.completion nd od a = .bitLastDataAck nd od) ∨
    (s.byteCount ≠ 0#8 ∧ a = false ∧ s.completion nd od a = .bitLastDataNack nd od) := by
  unfold State.completion
  rw [matchesAddress, extractAddress_insertBit_zero]
  by_cases h0 : s.byteCount = 0#8 <;> by_cases ha : s.acc.extractLsb' 1 7 = s.addr <;> cases a <;> simp [h0, ha]

end Machine

end Sys2Proof
end

