-- ==== Sys2Proof/Laws/Exec.lean ====
section
/-! SUPPORT. What `exec` and `step` can do, said once. -/

namespace Sys2Proof.Machine

/-- No operation stops: `exec` answers a next state on every operation and state. -/
theorem exec_is_next (i : Instr) (s : State) : ∃ t, exec i s = .next t := by
  cases i <;> exact ⟨_, rfl⟩

/-- A step that goes on is the selected operation run after taking the tick. -/
theorem step_next_iff (s t : State) :
    step s = .next t ↔ s.callIsStuck = false ∧ exec s.nextInstr s.takeTick = .next t := by
  unfold step
  cases h : s.callIsStuck <;> simp

/-- A step stops only where the operation calls the provider and the call does not return. -/
theorem step_fault_of_stuck {s : State} (h : s.callIsStuck = true) : step s = .fault .providerCallDidNotReturn := by
  simp [step, h]

theorem step_of_not_stuck {s : State} (h : s.callIsStuck = false) : step s = exec s.nextInstr s.takeTick := by
  simp [step, h]

theorem callIsStuck_of_returns {s : State} (h : s.currentTick.returns = true) : s.callIsStuck = false := by
  simp [State.callIsStuck, h]

/-- An IDLE tick never stops. -/
theorem callIsStuck_of_idle {s : State} {w : SampleWord} (h : s.nextInstr = .idle w) : s.callIsStuck = false := by
  simp [State.callIsStuck, h, callsProvider]

end Sys2Proof.Machine
end

