-- ==== Sys2Proof/Laws/PerInstr.lean ====
section
/-! SUPPORT. Families of statements about the instruction as syntax, one lemma per constructor. `EncodingFitsRow`: the word
an operation encodes to satisfies the mask and match of its row of spec/opcode_table.json, whatever its operands. -/

namespace Sys2Proof.Laws.EncodingFitsRow

/-- The encoding of `i` fits the row of `i`. -/
def Statement (i : Instr) : Prop := i.row.fits i.encode = true

theorem start : Statement .start := by rfl

theorem stop : Statement .stop := by rfl

theorem bitFirst (nd od : Bool) : Statement (.bitFirst nd od) := by cases nd <;> cases od <;> rfl

theorem bitMid (nd od : Bool) : Statement (.bitMid nd od) := by cases nd <;> cases od <;> rfl

theorem bitLastAddrAck (nd od : Bool) : Statement (.bitLastAddrAck nd od) := by cases nd <;> cases od <;> rfl

theorem bitLastAddrIgnore (nd od : Bool) : Statement (.bitLastAddrIgnore nd od) := by cases nd <;> cases od <;> rfl

theorem bitLastDataAck (nd od : Bool) : Statement (.bitLastDataAck nd od) := by cases nd <;> cases od <;> rfl

theorem bitLastDataNack (nd od : Bool) : Statement (.bitLastDataNack nd od) := by cases nd <;> cases od <;> rfl

theorem idle (w : SampleWord) : Statement (.idle w) := by
  simp [Statement, OpcodeRow.fits, Instr.row]

end Sys2Proof.Laws.EncodingFitsRow
end

