-- ==== Sys2Proof/Laws/Step.lean ====
section
/-! SUPPORT. The inversion of a step: if a step goes on, one of nine cases holds, each with the guard that selected the
operation, the operation, and the whole state after it. Proofs about `step` cite `step_cases` and unfold nothing. -/

namespace Sys2Proof.Machine

/-- The nine ways in which `step s = .next t` can come about. -/
inductive StepCase (s t : State) : Prop
  | start (guard : s.guardStart s.currentWord = true) (op : s.nextInstr = .start)
      (eq : t = { s.takeTick with
        byteCount := 0, acc := 0, bitIndex := 0, st := .started, jStarted := true
        events := s.events ++ [.notify .started] })
  | stop (guard : s.guardStop s.currentWord = true) (op : s.nextInstr = .stop)
      (eq : t = { s.takeTick with st := .stopped, jStopped := true, events := s.events ++ [.notify .stopped] })
  | bitFirst (nd od : Bool) (guard : s.guardBitFirst s.currentWord = true) (bit : nd = s.currentWord.nd)
      (op : s.nextInstr = .bitFirst nd od)
      (eq : t = { s.takeTick with bitIndex := 0, acc := firstBitByte nd, st := .receivingByte })
  | bitMid (nd od : Bool) (guard : s.guardBitMid s.currentWord = true) (bit : nd = s.currentWord.nd)
      (op : s.nextInstr = .bitMid nd od)
      (eq : t = { s.takeTick with
        acc := insertBit s.acc (7 - (s.bitIndex.toNat + 1)) nd, bitIndex := s.bitIndex + 1 })
  | addrAck (nd od : Bool) (guard : s.guardBitLast s.currentWord = true) (bit : nd = s.currentWord.nd)
      (first : s.byteCount = 0#8) (same : s.acc.extractLsb' 1 7 = s.addr) (op : s.nextInstr = .bitLastAddrAck nd od)
      (eq : t = { s.takeTick with
        acc := insertBit s.acc 0 nd, bitIndex := 7, dir := .ofBit nd, st := .started
        events := s.events ++ [.notify .started, .drive .low], sdaPull := true
        byteCount := countUp s.byteCount, jAcked := true })
  | addrIgnore (nd od : Bool) (guard : s.guardBitLast s.currentWord = true) (bit : nd = s.currentWord.nd)
      (first : s.byteCount = 0#8) (other : s.acc.extractLsb' 1 7 ≠ s.addr) (op : s.nextInstr = .bitLastAddrIgnore nd od)
      (eq : t = { s.takeTick with
        acc := insertBit s.acc 0 nd, bitIndex := 7, dir := .ofBit nd, st := .stopped, jAcked := true })
  | dataAck (nd od : Bool) (guard : s.guardBitLast s.currentWord = true) (bit : nd = s.currentWord.nd)
      (later : s.byteCount ≠ 0#8) (accepted : s.accept = true) (op : s.nextInstr = .bitLastDataAck nd od)
      (eq : t = { s.takeTick with
        acc := insertBit s.acc 0 nd, bitIndex := 7, st := .started, sdaPull := true, jAcked := true
        events := s.events ++ [(s.captureLast nd).byteEvent, .drive .low], byteCount := countUp s.byteCount })
  | dataNack (nd od : Bool) (guard : s.guardBitLast s.currentWord = true) (bit : nd = s.currentWord.nd)
      (later : s.byteCount ≠ 0#8) (rejected : s.accept = false) (op : s.nextInstr = .bitLastDataNack nd od)
      (eq : t = { s.takeTick with
        acc := insertBit s.acc 0 nd, bitIndex := 7, st := .stopped, sdaPull := false, jAcked := true
        events := s.events ++ [(s.captureLast nd).byteEvent, .notify .stopped, .drive .high]
        byteCount := countUp s.byteCount })
  | idle (noStart : s.guardStart s.currentWord = false) (noStop : s.guardStop s.currentWord = false)
      (noFirst : s.guardBitFirst s.currentWord = false) (noMid : s.guardBitMid s.currentWord = false)
      (noLast : s.guardBitLast s.currentWord = false) (op : s.nextInstr = .idle s.currentWord)
      (eq : t = { s.takeTick with jStarted := false, jStopped := false, jAcked := false })

/-- The byte entry point a completed byte goes to: the direction selects it, the accumulator is its argument. -/
@[simp] theorem State.byteEvent_captureLast (s : State) (b : Bool) :
    (s.captureLast b).byteEvent =
      if s.dir = .read then .readByte (insertBit s.acc 0 b) else .writeByte (insertBit s.acc 0 b) := by
  rw [State.byteEvent_eq]
  rfl

theorem step_cases {s t : State} (h : step s = .next t) : StepCase s t := by
  obtain ⟨-, h⟩ := (step_next_iff s t).1 h
  have hop : s.nextInstr = s.decode s.currentWord s.accept := rfl
  rcases s.decode_cases s.currentWord s.accept with
    ⟨g, d⟩ | ⟨g, d⟩ | ⟨g, d⟩ | ⟨g, d⟩ | ⟨g, d⟩ | ⟨g1, g2, g3, g4, g5, d⟩ <;> rw [d] at hop
  · rw [hop] at h
    cases h
    exact .start g hop rfl
  · rw [hop] at h
    cases h
    exact .stop g hop rfl
  · rw [hop] at h
    cases h
    exact .bitFirst _ _ g rfl hop rfl
  · rw [hop] at h
    cases h
    exact .bitMid _ _ g rfl hop rfl
  · rcases s.completion_cases s.currentWord.nd s.currentWord.od s.accept with
      ⟨h0, ha, c⟩ | ⟨h0, ha, c⟩ | ⟨h0, ha, c⟩ | ⟨h0, ha, c⟩ <;> rw [c] at hop <;> rw [hop] at h <;> cases h
    · refine .addrAck _ _ g rfl h0 ha hop ?_
      simp [State.emit, State.driveLow, State.countByte, State.setAcked, State.captureLast,
        extractDirection_insertBit_zero]
    · refine .addrIgnore _ _ g rfl h0 ha hop ?_
      simp [State.setAcked, State.captureLast, extractDirection_insertBit_zero]
    · refine .dataAck _ _ g rfl h0 ha hop ?_
      simp only [State.emit, State.driveLow, State.countByte, State.setAcked, State.deliverByte, List.append_assoc]
      rfl
    · refine .dataNack _ _ g rfl h0 ha hop ?_
      simp only [State.emit, State.driveHigh, State.countByte, State.setAcked, State.deliverByte, List.append_assoc]
      rfl
  · rw [hop] at h
    cases h
    exact .idle g1 g2 g3 g4 g5 hop rfl

end Sys2Proof.Machine
end

