-- ==== Sys2Proof/Machine/Stimulus.lean ====
section
/-! DEFINITION. The stimulus notation of 30_encoding.md rule R96: mnemonics and macros as ticks. -/

namespace Sys2Proof.Machine.Stimulus

/-- A tick without an answer. -/
def tick (w : SampleWord) : Tick := { word := w, answer := none, returns := true }

/-- The suffixes `/accept` and `/reject`. -/
def withAnswer (t : Tick) (a : Option Bool) : Tick := { t with answer := a }

/-- `HOLD(d,c)` -/
def hold (d c : Bool) : Tick := tick (.pack d c d c)
/-- `SDA_FALL_H` -/
def sdaFallH : Tick := tick 0x7
/-- `SDA_RISE_H` -/
def sdaRiseH : Tick := tick 0xD
/-- `FALL(d,e)` -/
def fall (d e : Bool) : Tick := tick (.pack e false d true)
/-- `RISE(d,e)` -/
def rise (d e : Bool) : Tick := tick (.pack e true d false)
/-- `LOW(d,e)` -/
def low (d e : Bool) : Tick := tick (.pack e false d false)
/-- `GAP(d,c)` -/
def gap (d c : Bool) : List Tick := [hold d c]

/-- `BYTE(b,p)` with the answer of its last tick: 21 ticks, eight of which capture. -/
def byte (b : Byte) (p : Bool) (answer : Option Bool) : List Tick :=
  [fall p (b.getLsbD 7)]
    ++ [6, 5, 4, 3, 2, 1].flatMap (fun k =>
        [low (b.getLsbD (k + 1)) (b.getLsbD k), rise (b.getLsbD k) (b.getLsbD k), fall (b.getLsbD k) (b.getLsbD k)])
    ++ [low (b.getLsbD 1) (b.getLsbD 0), withAnswer (rise (b.getLsbD 0) (b.getLsbD 0)) answer]

end Sys2Proof.Machine.Stimulus
end

