-- ==== Sys2Proof/Tests/Slice0.lean ====
section
/-! SUPPORT. The model's own tests: the construction check, decoding of words written out from the spec, at most two small
one-step tests per operation (expected values from 95_test_vectors.md; the row is named in each comment), and for every
statement with hypotheses a witness that meets them. -/

namespace Sys2Proof.Machine.Tests

/-- A decoder at address 0x50 in protocol state `st`, about to run a tick with word `w` and answer `a`. -/
def at_ (st : ProtocolState) (w : SampleWord) (a : Option Bool) : State :=
  { State.fresh 0x50 .external with st := st, ticks := [{ word := w, answer := a, returns := true }] }

/-- The state after one step; the state itself where the step stops. -/
def after (s : State) : State :=
  match step s with
  | .next t => t
  | .fault _ => s
  | .refused _ => s

/-! ### The construction check refuses each ill-formed provider -/

def goodProvider : Provider := { address := some 0x50, hasNotify := true, hasWriteByte := true, hasReadByte := true }

theorem test_good_provider : goodProvider.wellFormed = true := by decide
theorem test_no_address : { goodProvider with address := none }.problems = [.noAddress] := by decide
theorem test_address_too_wide : { goodProvider with address := some 128 }.problems = [.addressTooWide] := by decide
theorem test_no_notify : { goodProvider with hasNotify := false }.problems = [.noNotify] := by decide
theorem test_no_write_byte : { goodProvider with hasWriteByte := false }.problems = [.noWriteByte] := by decide
theorem test_no_read_byte : { goodProvider with hasReadByte := false }.problems = [.noReadByte] := by decide

/-- An operation is refused at a state its guard does not allow. -/
theorem test_not_selected :
    Instr.start.selectedAt { at_ .stopped 7 none with jStopped := true } true = false ∧
    Instr.stop.selectedAt (at_ .stopped 0xD none) true = false ∧
    (Instr.bitFirst true true).selectedAt { at_ .started 0xB none with jAcked := true } true = false ∧
    (Instr.bitMid true true).selectedAt { at_ .receivingByte 0xE none with bitIndex := 6 } true = false ∧
    (Instr.bitLastDataAck true true).selectedAt { at_ .receivingByte 0xE none with bitIndex := 6 } true = false ∧
    (Instr.idle 0x7).selectedAt (at_ .stopped 7 none) true = false := by decide

/-! ### Decoding: words written out bit by bit, `{nd, nc, od, oc}` (30_encoding.md rules R80, R83, R91) -/

theorem test_decode_start : (at_ .stopped 0 none).decode 0b0111 false = .start := by decide
theorem test_decode_stop : (at_ .started 0 none).decode 0b1101 false = .stop := by decide
theorem test_decode_bitFirst :
    [0b0001#4, 0b0011#4, 0b1001#4, 0b1011#4].map (fun w => (at_ .started 0 none).decode w false) =
      [.bitFirst false false, .bitFirst false true, .bitFirst true false, .bitFirst true true] := by decide
theorem test_decode_bitMid :
    [0b0100#4, 0b0110#4, 0b1100#4, 0b1110#4].map (fun w => (at_ .receivingByte 0 none).decode w false) =
      [.bitMid false false, .bitMid false true, .bitMid true false, .bitMid true true] := by decide
/-- V60 and V63: the address bits 1010000 and 1010001 against ADDR 0x50. -/
theorem test_decode_address_outcomes :
    { at_ .receivingByte 0 none with bitIndex := 6, acc := 0xA0 }.decode 0b1110 false = .bitLastAddrAck true true ∧
    { at_ .receivingByte 0 none with bitIndex := 6, acc := 0xA2 }.decode 0b0100 false = .bitLastAddrIgnore false false := by
  decide
/-- V71 and V73: a payload byte, accepted and rejected. -/
theorem test_decode_payload_outcomes :
    { at_ .receivingByte 0 none with bitIndex := 6, byteCount := 1 }.decode 0b0100 true = .bitLastDataAck false false ∧
    { at_ .receivingByte 0 none with bitIndex := 6, byteCount := 1 }.decode 0b1110 false = .bitLastDataNack true true := by
  decide
theorem test_decode_idle :
    [0x0#4, 0x2#4, 0x5#4, 0x8#4, 0xA#4, 0xF#4].map (fun w => (at_ .started 0 none).decode w false) =
      [.idle 0x0, .idle 0x2, .idle 0x5, .idle 0x8, .idle 0xA, .idle 0xF] := by decide
theorem test_decodeTableWord :
    [0x7, 0xD, 0x9, 0x4, 0x5].map (decodeTableWord 8) =
      [some .start, some .stop, some (.bitFirst true false), some (.bitMid false false), some (.idle 0x5)] ∧
    decodeTableWord 0 0 = none := by decide

/-! ### One step of each operation -/

/-- V2 -/
theorem test_start_repeated :
    let t := after { at_ .started 0x7 none with acc := 0x3C, bitIndex := 7, byteCount := 3, sdaPull := true }
    (t.st, t.acc, t.bitIndex, t.byteCount) = (.started, 0x00, 0, 0) ∧
      (t.jStarted, t.sdaPull, t.events) = (true, true, [.notify .started]) := by decide
/-- V7 -/
theorem test_start_suppressed_after_stop :
    let t := after { at_ .stopped 0x7 none with jStopped := true }
    (t.st, t.jStarted, t.jStopped, t.events) = (.stopped, false, false, []) := by decide
/-- V24 -/
theorem test_stop_right_after_acknowledge :
    let t := after { at_ .started 0xD none with acc := 0xA0, bitIndex := 7, byteCount := 1, jAcked := true, sdaPull := true }
    (t.st, t.acc, t.byteCount, t.events) = (.stopped, 0xA0, 1, [.notify .stopped]) ∧
      (t.jStopped, t.jAcked, t.sdaPull) = (true, true, true) := by decide
/-- V22 -/
theorem test_stop_in_stopped_is_idle : (after (at_ .stopped 0xD none)).events = [] := by decide
/-- V32 -/
theorem test_bitFirst_new_level :
    let t := after { at_ .started 0x9 none with acc := 0xFF, bitIndex := 7, byteCount := 1 }
    (t.st, t.acc, t.bitIndex, t.byteCount) = (.receivingByte, 0x80, 0, 1) := by decide
/-- V35 -/
theorem test_bitFirst_blocked_by_flag :
    let t := after { at_ .started 0xB none with acc := 0xA0, jAcked := true }
    (t.st, t.acc, t.jAcked) = (.started, 0xA0, false) := by decide
/-- V45 -/
theorem test_bitMid_last_position :
    let t := after { at_ .receivingByte 0xC none with acc := 0x7C, bitIndex := 5 }
    (t.acc, t.bitIndex) = (0x7E, 6) := by decide
/-- V50 -/
theorem test_bitMid_writes_zero :
    let t := after { at_ .receivingByte 0x4 none with acc := 0xFF }
    (t.acc, t.bitIndex) = (0xBF, 1) := by decide
/-- V60 -/
theorem test_addrAck_read :
    let t := after { at_ .receivingByte 0xE none with acc := 0xA0, bitIndex := 6 }
    (t.st, t.dir, t.acc, t.bitIndex) = (.started, .read, 0xA1, 7) ∧
      (t.byteCount, t.jAcked, t.sdaPull, t.events) = (1, true, true, [.notify .started, .drive .low]) := by decide
/-- V68 -/
theorem test_addrAck_highest_address :
    let t := after { at_ .receivingByte 0xE none with acc := 0xFE, bitIndex := 6, addr := 0x7F }
    (t.st, t.dir, t.acc) = (.started, .read, 0xFF) := by decide
/-- V65 -/
theorem test_addrIgnore_silent :
    let t := after { at_ .receivingByte 0xE none with acc := 0x02, bitIndex := 6, sdaPull := true }
    (t.st, t.dir, t.acc, t.byteCount) = (.stopped, .read, 0x03, 0) ∧
      (t.jAcked, t.sdaPull, t.events) = (true, true, []) := by decide
/-- V72 -/
theorem test_dataAck_read :
    let t := after { at_ .receivingByte 0xE (some true) with
      dir := .read, acc := 0x3C, bitIndex := 6, byteCount := 1 }
    (t.st, t.byteCount, t.sdaPull, t.events) = (.started, 2, true, [.readByte 0x3D, .drive .low]) := by decide
/-- V77 -/
theorem test_dataAck_count_saturates :
    (after { at_ .receivingByte 0x4 (some true) with bitIndex := 6, byteCount := 255 }).byteCount = 255 := by decide
/-- V73 -/
theorem test_dataNack_write :
    let t := after { at_ .receivingByte 0xE (some false) with
      acc := 0xFE, bitIndex := 6, byteCount := 1, sdaPull := true }
    (t.st, t.acc, t.byteCount, t.events) =
      (.stopped, 0xFF, 2, [.writeByte 0xFF, .notify .stopped, .drive .high]) ∧
      (t.jAcked, t.jStopped, t.sdaPull) = (true, false, false) := by decide
/-- V83 -/
theorem test_idle_clears_flags_together :
    let t := after { at_ .stopped 0x5 none with jStarted := true, jStopped := true }
    (t.jStarted, t.jStopped, t.jAcked) = (false, false, false) := by decide

/-- Rule R96 and scenario S4: the 21 words of `BYTE(0xA1, 0)`. -/
theorem test_byte_macro :
    (Stimulus.byte 0xA1 0 none).map (·.word) =
      [9, 2, 4, 1, 8, 0xE, 0xB, 2, 4, 1, 0, 4, 1, 0, 4, 1, 0, 4, 1, 8, 0xE] := by decide

/-! ### Witnesses: for every statement with hypotheses, states and operands that meet them, each clause at an edge -/

/-- A state from which one step goes on, whatever the free values are. -/
theorem step_at_goes_on : step (at_ .stopped 0x7 none) = .next (after (at_ .stopped 0x7 none)) := rfl

theorem witness_BitMidCapturesTheNextBit :
    let s := { at_ .receivingByte 0 none with bitIndex := 5, acc := 0xFC }
    s.bitIndex ≤ 5#3 ∧ s.st = .receivingByte ∧ s.UncapturedBitsAreZero ∧ SampleWord.clkFall 0x1 = true := by decide

theorem witness_AddrAckAcknowledges : (at_ .receivingByte 0 none).byteCount = 0#8 := by decide

theorem witness_DecodeIsThePriorityList :
    (at_ .stopped 0 none).guardStart 0x7 = true ∧ (at_ .started 0 none).guardStop 0xD = true ∧
    (at_ .started 0 none).guardBitFirst 0x1 = true ∧
    { at_ .receivingByte 0 none with bitIndex := 5 }.guardBitMid 0x4 = true ∧
    { at_ .receivingByte 0 none with bitIndex := 6, acc := 0xA0 }.guardBitLast 0x4 = true ∧
    { at_ .receivingByte 0 none with bitIndex := 6, byteCount := 1 }.guardBitLast 0x4 = true ∧
    (at_ .stopped 0 none).decode 0x4 true = .idle 0x4 := by decide

theorem witness_DecodeMatrix :
    (at_ .stopped 0 none).st = .stopped ∧ (at_ .started 0 none).st = .started ∧
    (at_ .receivingByte 0 none).st = .receivingByte := by decide

/-- One state for each of the four outcomes. -/
theorem witness_CompletionDispatch :
    let s := { at_ .receivingByte 0 none with bitIndex := 6 }
    s.st = .receivingByte ∧ SampleWord.clkRise 0x4 = true ∧ s.bitIndex = 6#3 ∧ s.byteCount = 0#8 ∧
    (insertBit 0xA0 0 false).extractLsb' 1 7 = s.addr ∧ (insertBit 0xA2 0 false).extractLsb' 1 7 ≠ s.addr ∧
    { s with byteCount := 1 }.byteCount ≠ 0#8 := by decide

theorem witness_UnreachableStatesRunIdle :
    { at_ .receivingByte 0 none with bitIndex := 7 }.bitIndex = 7#3 ∧ SampleWord.clkRise 0xE = true ∧
    { at_ .started 0 none with jStopped := true }.jStopped = true := by decide

theorem witness_IgnoredSequencesRunIdle :
    SampleWord.clkFall 0x1 = true ∧ SampleWord.clkRise 0x4 = true ∧
    { at_ .started 0 none with jStarted := true }.anyFlag = true ∧
    { at_ .stopped 0 none with jStopped := true }.JStoppedMeansStopped ∧
    { at_ .stopped 0 none with jStopped := true }.decode 0x7 true = .idle 0x7 ∧
    (at_ .stopped 0 none).decode 0xD true = .idle 0xD := by decide

theorem witness_OldDataLevelIsIgnored : SampleWord.clkFall 0x9 = true ∧ SampleWord.clkRise 0x6 = true := by decide

theorem witness_ConstructionNeedsAFullProvider :
    goodProvider.address = some 80 ∧ goodProvider.hasNotify = true ∧ goodProvider.hasWriteByte = true ∧
    goodProvider.hasReadByte = true ∧ { goodProvider with address := some 127 }.wellFormed = true ∧
    { goodProvider with address := none }.address = none ∧ { goodProvider with address := some 128 }.wellFormed = false := by
  decide

theorem witness_StepRunsTheSelectedOperation :
    (at_ .stopped 0x7 none).currentTick.returns = true ∧
    callsProvider ((at_ .stopped 0xF none).decode (at_ .stopped 0xF none).currentWord (some true).isSome) = false ∧
    (at_ .stopped 0x7 (some true)).ticks = [{ word := 0x7, answer := some true, returns := true }] ∧
    (at_ .stopped 0x7 none).sampleSource = .external := by decide

/-- A tick whose provider call does not return stops the step (both directions of the clause on the stop); the two answers
select different operations. -/
theorem witness_StepIsTotalAndReadsAcceptOnlyForPayload :
    (let s := { at_ .stopped 0x7 none with ticks := [{ word := 0x7, answer := none, returns := false }] };
      callsProvider s.nextInstr = true ∧ s.currentTick.returns = false ∧ step s = .fault .providerCallDidNotReturn) ∧
    { at_ .receivingByte 0 none with bitIndex := 6, byteCount := 1 }.decode 0x4 true ≠
      { at_ .receivingByte 0 none with bitIndex := 6, byteCount := 1 }.decode 0x4 false := ⟨⟨by decide, rfl, rfl⟩, by decide⟩

theorem witness_FetchWordRunsItsRow : decodeTableWord 8 0x4 = some (.bitMid false false) := by decide

/-- One state for each operation from which a step goes on (the statements about `step s = .next t`). -/
theorem witness_each_operation_steps :
    step (at_ .stopped 0x7 none) = .next (after (at_ .stopped 0x7 none)) ∧
    step (at_ .started 0xD none) = .next (after (at_ .started 0xD none)) ∧
    step (at_ .started 0x1 none) = .next (after (at_ .started 0x1 none)) ∧
    step (at_ .receivingByte 0x4 none) = .next (after (at_ .receivingByte 0x4 none)) ∧
    step (at_ .stopped 0xF none) = .next (after (at_ .stopped 0xF none)) ∧
    (let s := { at_ .receivingByte 0x4 none with bitIndex := 6, acc := 0xA0 };
      s.nextInstr = .bitLastAddrAck false false ∧ step s = .next (after s)) ∧
    (let s := { at_ .receivingByte 0x4 none with bitIndex := 6, acc := 0xA2 };
      s.nextInstr = .bitLastAddrIgnore false false ∧ step s = .next (after s)) ∧
    (let s := { at_ .receivingByte 0x4 (some true) with bitIndex := 6, byteCount := 1 };
      s.nextInstr = .bitLastDataAck false false ∧ step s = .next (after s)) ∧
    (let s := { at_ .receivingByte 0x4 (some false) with bitIndex := 6, byteCount := 1 };
      s.nextInstr = .bitLastDataNack false false ∧ step s = .next (after s)) :=
  ⟨rfl, rfl, rfl, rfl, rfl, ⟨by decide, rfl⟩, ⟨by decide, rfl⟩, ⟨by decide, rfl⟩, ⟨by decide, rfl⟩⟩

theorem witness_InternalFrontEnd :
    let s := { at_ .stopped 0x5 none with sampleSource := .internalRegs }
    s.sampleSource = .internalRegs ∧ s.currentWord = 0x7 ∧ step s = .next (after s) := ⟨rfl, by decide, rfl⟩

theorem witness_ErrorClassesOfTicks :
    (at_ .stopped 0 none).JStoppedMeansStopped ∧
    errorClass ({ at_ .receivingByte 0 none with bitIndex := 6 }.decode 0x4 true) = some .mismatch ∧
    errorClass ({ at_ .receivingByte 0 none with bitIndex := 6, byteCount := 1 }.decode 0x4 false) = some .reject ∧
    errorClass ((at_ .stopped 0 none).decode 0xD true) = some .malformed ∧
    errorClass ({ at_ .stopped 0 none with jStopped := true }.decode 0x7 true) = some .malformed := by decide

theorem witness_StartAsTheTestsStateIt :
    (at_ .stopped 0x7 none).currentWord.startEdge = true ∧ (at_ .stopped 0x7 none).currentTick.returns = true ∧
    (at_ .stopped 0x7 none).jStopped = false ∧ { at_ .stopped 0x7 none with jStopped := true }.st = .stopped ∧
    { at_ .receivingByte 0x7 none with bitIndex := 3 }.currentWord.startEdge = true := by decide

theorem witness_StopAsTheTestsStateIt :
    (at_ .started 0xD none).currentWord.stopEdge = true ∧ (at_ .receivingByte 0xD none).currentWord.stopEdge = true ∧
    (at_ .started 0xD none).currentTick.returns = true := by decide

/-- Q1: STOP, then a START pattern, then another. -/
theorem witness_StartRightAfterStopIsLost :
    let s := { at_ .started 0xD none with
      ticks := [Stimulus.sdaRiseH, Stimulus.sdaFallH, Stimulus.sdaFallH] }
    s.nextInstr = .stop ∧ step s = .next (after s) ∧ step (after s) = .next (after (after s)) ∧
    (after (after s)).currentWord = 0x7 := ⟨by decide, rfl, rfl, by decide⟩

/-- Q2: START, a falling edge, and a falling edge that begins a byte. -/
theorem witness_FallingEdgeRightAfterConditionIsLost :
    let s := { at_ .stopped 0 none with ticks := [Stimulus.sdaFallH, Stimulus.fall false false, Stimulus.fall false true] }
    step s = .next (after s) ∧ s.nextInstr = .start ∧ (after s).currentWord.startEdge = false ∧
    (after s).currentWord.stopEdge = false ∧ (after (after s)).currentWord.clkFall = true := by
  refine ⟨rfl, ?_, ?_, ?_, ?_⟩ <;> decide

theorem witness_FlagsEndAtTheFirstOtherTick :
    let s := { at_ .started 0x1 none with jAcked := true }
    let r := { at_ .stopped 0x7 none with jStopped := true }
    s.ReceivingIsClean ∧ s.JStoppedMeansStopped ∧ step s = .next (after s) ∧ s.anyFlag = true ∧
    s.nextInstr ≠ .start ∧ s.nextInstr ≠ .stop ∧
    r.ReceivingIsClean ∧ r.JStoppedMeansStopped ∧ step r = .next (after r) ∧ r.jStopped = true := by
  refine ⟨?_, ?_, rfl, ?_, ?_, ?_, ?_, ?_, rfl, ?_⟩ <;> decide

theorem witness_UnchangedLinesAreIdempotent :
    let s := { at_ .started 0x5 none with jAcked := true, ticks := [Stimulus.hold false true, Stimulus.hold false true] }
    s.currentWord.nd = s.currentWord.od ∧ s.currentWord.nc = s.currentWord.oc ∧
    step s = .next (after s) ∧ (after s).currentWord = s.currentWord := ⟨by decide, by decide, rfl, by decide⟩

theorem witness_OnlyStartLeavesStopped :
    (after (at_ .stopped 0x7 none)).st ≠ .stopped ∧ (at_ .stopped 0x7 none).st = .stopped ∧
    (at_ .started 0x7 none).jStopped = false ∧ (at_ .started 0xD none).nextInstr = .stop := by decide

theorem witness_AddressMismatchIsNoError :
    let s := { at_ .receivingByte 0 none with
      bitIndex := 6, acc := 0x02, ticks := [Stimulus.rise false false, Stimulus.sdaRiseH] }
    s.guardBitLast s.currentWord = true ∧ s.byteCount = 0#8 ∧ s.acc.extractLsb' 1 7 ≠ s.addr ∧
    step s = .next (after s) ∧ (after s).currentWord ≠ 0x7 := ⟨by decide, by decide, by decide, rfl, by decide⟩

theorem witness_RejectedByteDoesNotStopTheMachine :
    let s := { at_ .receivingByte 0 none with
      bitIndex := 6, byteCount := 1
      ticks := [Stimulus.withAnswer (Stimulus.rise false false) (some false), Stimulus.sdaFallH] }
    s.ReceivingIsClean ∧ s.guardBitLast s.currentWord = true ∧ s.byteCount ≠ 0#8 ∧ s.accept = false ∧
    s.currentTick.returns = true ∧ step s = .next (after s) ∧ (after s).currentWord = 0x7 :=
  ⟨by decide, by decide, by decide, by decide, by decide, rfl, by decide⟩

theorem witness_CountMovesOnlyOnCompletion :
    let s := { at_ .receivingByte 0x4 (some true) with bitIndex := 6, byteCount := 254 }
    step s = .next (after s) ∧ s.nextInstr ≠ .start ∧ (after s).byteCount = 255#8 := ⟨rfl, by decide, by decide⟩

theorem witness_EightCapturesSpellTheByte (s : State) :
    ∃ s0 s1 s2 s3 s4 s5 s6 t, exec (.bitFirst true false) s = .next s0 ∧ exec (.bitMid false false) s0 = .next s1 ∧
      exec (.bitMid true false) s1 = .next s2 ∧ exec (.bitMid false false) s2 = .next s3 ∧
      exec (.bitMid false false) s3 = .next s4 ∧ exec (.bitMid false false) s4 = .next s5 ∧
      exec (.bitMid false false) s5 = .next s6 ∧ exec (.bitLastAddrAck true false) s6 = .next t :=
  ⟨_, _, _, _, _, _, _, _, rfl, rfl, rfl, rfl, rfl, rfl, rfl, rfl⟩

/-- A state of a live transaction that meets every invariant, and steps. -/
theorem witness_StepKeepsInvariants :
    let s := { at_ .receivingByte 0xE (some true) with
      acc := 0x3C, bitIndex := 6, byteCount := 1, sdaPull := true, events := [.notify .started, .drive .low] }
    s.Inv ∧ step s = .next (after s) := ⟨by decide, rfl⟩

theorem witness_UnreadElementsAreUnobservable :
    (at_ .started 0x1 none).Agree { at_ .started 0x1 none with acc := 0xFF, bitIndex := 7, sdaPull := true } ∧
    (at_ .stopped 0x7 none).st = .stopped ∧ (at_ .started 0x1 none).st = .started := by
  refine ⟨?_, rfl, rfl⟩
  unfold State.Agree
  decide

/-- Q3, its first eight captures: BIT_FIRST, an IDLE and six BIT_MIDs, then the completing tick. -/
theorem witness_SerialFrameSpellsTheByte :
    let r := Stimulus.rise true true
    let s := { at_ .started 0 none with
      byteCount := 1
      ticks := [Stimulus.fall false true, r, Stimulus.fall true true, r, r, r, r, r, { r with answer := some true }] }
    ∃ s1 t, s.nextInstr = .bitFirst true false ∧ step s = .next s1 ∧
      CaptureRun s1 [true, true, true, true, true, true] t ∧
      t.nextInstr = .bitLastDataAck true true ∧ step t = .next (after t) :=
  ⟨_, _, by decide, rfl,
    .mid (bits := [true, true, true, true, true]) (od := true) (.mid (bits := [true, true, true, true]) (od := true)
      (.mid (bits := [true, true, true]) (od := true) (.mid (bits := [true, true]) (od := true)
        (.mid (bits := [true]) (od := true) (.idle (w := 0xB) (.mid (bits := []) (od := true) (.refl _)
          (by decide) rfl) (by decide) rfl) (by decide) rfl) (by decide) rfl) (by decide) rfl) (by decide) rfl)
      (by decide) rfl, by decide, rfl⟩

end Sys2Proof.Machine.Tests
end

section
/-! PROOFS. Eight captures spell the byte (30_encoding.md rule R87). One predicate, `State.HasCaptured`, says which bits of
the byte under assembly a state holds; BIT_FIRST establishes it, and BIT_MID and BIT_LAST append one bit to it. -/

namespace Sys2Proof.Machine

/-- Position 7 of `acc` is the first of `bits`, each later bit one position lower, and the positions not yet reached
are 0. -/
def HoldsBits (acc : Byte) (bits : List Bool) : Prop :=
  ∀ p, p < 8 → acc.getLsbD p = bits.getD (7 - p) false

/-- The byte under assembly consists of `bits` so far, in order of arrival; the last is at arrival index `bitIndex`. -/
def State.HasCaptured (s : State) (bits : List Bool) : Prop :=
  bits.length = s.bitIndex.toNat + 1 ∧ HoldsBits s.acc bits

/-! ### The number that bits in order of arrival spell -/

theorem bitsValue_append_singleton (bits : List Bool) (b : Bool) :
    bitsValue (bits ++ [b]) = Nat.bit b (bitsValue bits) := by
  simp [bitsValue, Nat.bit_val]

/-- Bit `p` of the number is the bit that arrived `p` before the last. -/
theorem testBit_bitsValue (bits : List Bool) (p : Nat) :
    (bitsValue bits).testBit p = bits.reverse.getD p false := by
  induction bits using List.reverseRecOn generalizing p with
  | nil => simp [bitsValue]
  | append_singleton bits b ih =>
    rw [bitsValue_append_singleton, List.reverse_concat]
    cases p with
    | zero => simp
    | succ p => rw [Nat.testBit_bit_succ, ih, List.getD_cons_succ]

theorem bitsValue_lt_two_pow (bits : List Bool) : bitsValue bits < 2 ^ bits.length := by
  refine Nat.lt_pow_two_of_testBit _ fun p hp => ?_
  rw [testBit_bitsValue, List.getD_eq_default _ _ (by simpa using hp)]

/-! ### Capturing one bit -/

theorem getD_append_singleton (bits : List Bool) (b : Bool) (i : Nat) :
    (bits ++ [b]).getD i false = if i = bits.length then b else bits.getD i false := by
  rcases Nat.lt_trichotomy i bits.length with h | h | h
  · rw [List.getD_append _ _ _ _ h, if_neg h.ne]
  · simp [h]
  · rw [List.getD_append_right _ _ _ _ h.le, if_neg h.ne', List.getD_eq_default _ _ h.le,
      List.getD_eq_default _ _ (by simp; omega)]

theorem holdsBits_firstBitByte (b : Bool) : HoldsBits (firstBitByte b) [b] := by
  unfold HoldsBits
  revert b
  decide

/-- Writing position `7 - n`, with `n` bits held, appends a bit. -/
theorem HoldsBits.insertBit {acc : Byte} {bits : List Bool} (h : HoldsBits acc bits) (hn : bits.length ≤ 7) (b : Bool) :
    HoldsBits (insertBit acc (7 - bits.length) b) (bits ++ [b]) := by
  intro p hp
  have hpos : p = 7 - bits.length ↔ 7 - p = bits.length := by omega
  simp only [insertBit_getLsbD _ _ _ _ hp, getD_append_singleton, h p hp, hpos]

/-- A byte that holds eight bits is the number they spell. -/
theorem HoldsBits.eq_ofNat_bitsValue {acc : Byte} {bits : List Bool} (h : HoldsBits acc bits) (hn : bits.length = 8) :
    acc = BitVec.ofNat 8 (bitsValue bits) := by
  refine BitVec.eq_of_getLsbD_eq fun p hp => ?_
  rw [h p hp, BitVec.getLsbD_ofNat, testBit_bitsValue, List.getD_reverse _ (hn ▸ hp), hn]
  simp [hp]

/-- The address in a byte that holds eight bits is the number the first seven spell (rule R161). -/
theorem HoldsBits.extractAddress_toNat {acc : Byte} {bits : List Bool} {b : Bool} (h : HoldsBits acc (bits ++ [b]))
    (hn : bits.length = 7) : (extractAddress acc).toNat = bitsValue bits := by
  have hlt : bitsValue bits < 128 := by simpa [hn] using bitsValue_lt_two_pow bits
  have hb := b.toNat_lt
  rw [h.eq_ofNat_bitsValue (by simp [hn]), bitsValue_append_singleton, Nat.bit_val]
  simp only [extractAddress, BitVec.extractLsb'_toNat, BitVec.toNat_ofNat, Nat.shiftRight_eq_div_pow]
  omega

/-! ### The operations of a byte -/

theorem hasCaptured_of_bitFirst {s t : State} {b o : Bool} (h : exec (.bitFirst b o) s = .next t) :
    t.HasCaptured [b] := by
  cases h
  exact ⟨rfl, holdsBits_firstBitByte b⟩

theorem State.HasCaptured.bitMid {s t : State} {bits : List Bool} {b o : Bool} (hs : s.HasCaptured bits)
    (hn : bits.length ≤ 6) (h : exec (.bitMid b o) s = .next t) : t.HasCaptured (bits ++ [b]) := by
  obtain ⟨hlen, hbits⟩ := hs
  cases h
  constructor
  · simp only [captureNext_bitIndex, List.length_append, List.length_singleton]
    bv_omega
  · rw [captureNext_acc, ← hlen]
    exact hbits.insertBit (by omega) b

/-- What the four outcomes of a completion share: the eighth bit at position 0, arrival index 7 (rule R134). -/
theorem exec_bitLast_captures {s t : State} {b o : Bool} {last : Instr}
    (hlast : last ∈ [Instr.bitLastAddrAck b o, .bitLastAddrIgnore b o, .bitLastDataAck b o, .bitLastDataNack b o])
    (h : exec last s = .next t) : t.acc = insertBit s.acc 0 b ∧ t.bitIndex = 7 := by
  simp only [List.mem_cons, List.not_mem_nil, or_false] at hlast
  obtain rfl | rfl | rfl | rfl := hlast <;> cases h <;> exact ⟨rfl, rfl⟩

theorem State.HasCaptured.bitLast {s t : State} {bits : List Bool} {b o : Bool} {last : Instr} (hs : s.HasCaptured bits)
    (hn : bits.length = 7)
    (hlast : last ∈ [Instr.bitLastAddrAck b o, .bitLastAddrIgnore b o, .bitLastDataAck b o, .bitLastDataNack b o])
    (h : exec last s = .next t) : t.HasCaptured (bits ++ [b]) := by
  obtain ⟨hacc, hindex⟩ := exec_bitLast_captures hlast h
  refine ⟨by simp [hn, hindex], ?_⟩
  obtain ⟨-, hheld⟩ := hs
  have hbits := hheld.insertBit hn.le b
  rwa [hn, Nat.sub_self, ← hacc] at hbits

/-- Settles O49: BIT_FIRST, each BIT_MID and BIT_LAST append their level to the captured bits, and the eight captured bits
are the accumulator. -/
theorem eightCapturesSpellTheByte : Obligations.EightCapturesSpellTheByte := by
  unfold Obligations.EightCapturesSpellTheByte
  intro s s0 s1 s2 s3 s4 s5 s6 t b0 b1 b2 b3 b4 b5 b6 b7 o last h0 h1 h2 h3 h4 h5 h6 hlast h7
  have c0 : s0.HasCaptured [b0] := hasCaptured_of_bitFirst h0
  have c1 : s1.HasCaptured [b0, b1] := c0.bitMid (by simp) h1
  have c2 : s2.HasCaptured [b0, b1, b2] := c1.bitMid (by simp) h2
  have c3 : s3.HasCaptured [b0, b1, b2, b3] := c2.bitMid (by simp) h3
  have c4 : s4.HasCaptured [b0, b1, b2, b3, b4] := c3.bitMid (by simp) h4
  have c5 : s5.HasCaptured [b0, b1, b2, b3, b4, b5] := c4.bitMid (by simp) h5
  have c6 : s6.HasCaptured [b0, b1, b2, b3, b4, b5, b6] := c5.bitMid (by simp) h6
  obtain ⟨-, hbits⟩ : t.HasCaptured ([b0, b1, b2, b3, b4, b5, b6] ++ [b7]) := c6.bitLast rfl hlast h7
  have hdirection : t.acc.getLsbD 0 = b7 := hbits 0 (by decide)
  refine ⟨⟨hbits 7 ?_, hbits 6 ?_, hbits 5 ?_, hbits 4 ?_, hbits 3 ?_, hbits 2 ?_, hbits 1 ?_, hdirection⟩,
    hbits.extractAddress_toNat rfl, ?direction⟩
  case direction => rw [extractDirection, hdirection, Direction.ofBit]
  all_goals decide

end Sys2Proof.Machine
end

section
/-! PROOFS. STOP as the document's tests state it (40_conditions.md rule R113). Inside a transaction the word of a STOP
condition can select nothing but STOP, and a STOP whose notification returns has one next state. -/

namespace Sys2Proof.Machine

/-- No tick is both: the two conditions have different words. -/
theorem State.guardStart_eq_false_of_guardStop {s : State} {w : SampleWord} (h : s.guardStop w = true) :
    s.guardStart w = false := by
  obtain ⟨hstop, -⟩ := (s.guardStop_iff w).1 h
  refine Bool.eq_false_iff.2 fun hg => ?_
  obtain ⟨hstart, -⟩ := (s.guardStart_iff w).1 hg
  exact absurd (hstart.symm.trans hstop) (by decide)

theorem State.decode_of_guardStop {s : State} {w : SampleWord} (h : s.guardStop w = true) (a : Bool) :
    s.decode w a = .stop := by
  simp [State.decode, h, State.guardStart_eq_false_of_guardStop h]

/-- The whole step of a tick that selects STOP, when its notification returns. -/
theorem step_of_stop {s : State} (hop : s.nextInstr = .stop) (hret : s.currentTick.returns = true) :
    step s = .next { s.takeTick with
      st := .stopped, jStopped := true, events := s.events ++ [.notify .stopped] } := by
  rw [step_of_not_stuck (callIsStuck_of_returns hret), hop]
  rfl

/-- Settles O40: on a STOP pattern inside a transaction the tick selects STOP, whose one event is the notification. -/
theorem stopAsTheTestsStateIt : Obligations.StopAsTheTestsStateIt := by
  unfold Obligations.StopAsTheTestsStateIt
  intro s hedge hret hst
  have hguard : s.guardStop s.currentWord = true :=
    (s.guardStop_iff s.currentWord).2 ⟨(SampleWord.stopEdge_iff _).1 hedge, hst⟩
  exact ⟨_, step_of_stop (State.decode_of_guardStop hguard s.accept) hret, rfl, rfl⟩

end Sys2Proof.Machine
end

section
/-! PROOFS. BIT_MID (41_byte_assembly.md rule R132). The decode inside a byte as one equation, which BIT_MID's selection
and its corner cases (d) and (e) instantiate; and when a bit written by insertion is the bit or-ed in, corner case (a). -/

namespace Sys2Proof

/-- The words of corner case (d): a falling clock edge, or a data change while the clock stays low. -/
theorem SampleWord.no_condition_no_clkRise {w : SampleWord} (h : w.clkFall = true ∨ w = 0x2 ∨ w = 0x8) :
    w.startEdge = false ∧ w.stopEdge = false ∧ w.clkRise = false := by
  revert w
  decide

/-- A rising clock edge is neither of the two conditions, whose clock stays high. -/
theorem SampleWord.no_condition_of_clkRise {w : SampleWord} (h : w.clkRise = true) :
    w.startEdge = false ∧ w.stopEdge = false := by
  revert w
  decide

theorem SampleWord.eq_pack_rise_iff (w : SampleWord) (nd od : Bool) :
    w = .pack nd true od false ↔ w.clkRise = true ∧ w.nd = nd ∧ w.od = od := by
  constructor
  · rintro rfl
    simp [SampleWord.clkRise]
  · rintro ⟨hrise, rfl, rfl⟩
    exact w.clkRise_iff.1 hrise

namespace Machine

/-! ### The decode inside a byte -/

/-- Inside a byte no falling edge counts and no flag is read: the word and `bitIndex` decide. -/
theorem State.decode_receivingByte {s : State} (hst : s.st = .receivingByte) (w : SampleWord) (a : Bool) :
    s.decode w a =
      if w.startEdge then .start
      else if w.stopEdge then .stop
      else if w.clkRise = true ∧ s.bitIndex ≤ 5#3 then .bitMid w.nd w.od
      else if w.clkRise = true ∧ s.bitIndex = 6#3 then s.completion w.nd w.od a
      else .idle w := by
  simp [State.decode, State.guardStart, State.guardStop, State.guardBitFirst, State.guardBitMid, State.guardBitLast, hst]

theorem State.decode_of_guardBitMid {s : State} {w : SampleWord} (h : s.guardBitMid w = true) (a : Bool) :
    s.decode w a = .bitMid w.nd w.od := by
  obtain ⟨hst, hrise, hindex⟩ := (s.guardBitMid_iff w).1 h
  obtain ⟨hstart, hstop⟩ := SampleWord.no_condition_of_clkRise hrise
  simp [State.decode_receivingByte hst, hstart, hstop, hrise, hindex]

/-- A completion is never BIT_MID. -/
theorem State.completion_ne_bitMid (s : State) (nd od a nd' od' : Bool) :
    s.completion nd od a ≠ .bitMid nd' od' := by
  rcases s.completion_cases nd od a with ⟨-, -, h⟩ | ⟨-, -, h⟩ | ⟨-, -, h⟩ | ⟨-, -, h⟩ <;> simp [h]

/-- BIT_MID is selected exactly where its guard holds, with the data levels of the word. -/
theorem State.decode_eq_bitMid_iff (s : State) (w : SampleWord) (a nd od : Bool) :
    s.decode w a = .bitMid nd od ↔ s.guardBitMid w = true ∧ w.nd = nd ∧ w.od = od := by
  constructor
  · intro hop
    rcases s.decode_cases w a with ⟨-, h⟩ | ⟨-, h⟩ | ⟨-, h⟩ | ⟨hguard, h⟩ | ⟨-, h⟩ | ⟨-, -, -, -, -, h⟩ <;>
      rw [h] at hop
    · cases hop
    · cases hop
    · cases hop
    · exact ⟨hguard, by simpa using hop⟩
    · exact absurd hop (s.completion_ne_bitMid _ _ _ _ _)
    · cases hop
  · rintro ⟨hguard, rfl, rfl⟩
    exact State.decode_of_guardBitMid hguard a

/-! ### Writing a position that is still 0 -/

/-- Where position `p` is 0, writing it is or-ing the bit in. -/
theorem insertBit_eq_or {acc : Byte} {p : Nat} (h : acc.getLsbD p = false) (b : Bool) :
    insertBit acc p b = acc ||| (if b then BitVec.twoPow 8 p else 0#8) := by
  refine BitVec.eq_of_getLsbD_eq fun q hq => ?_
  rw [insertBit_getLsbD _ _ _ _ hq, BitVec.getLsbD_or]
  by_cases hqp : q = p
  · subst hqp
    cases b <;> simp [h, hq, -BitVec.getLsbD_eq_getElem]
  · cases b <;> simp [hqp, Ne.symm hqp]

/-- The bit of arrival index `n` stands `n` positions below the top one (20_memory.md rule R52). -/
theorem topBit_shiftRight {n : Nat} (hn : n ≤ 7) : 0x80#8 >>> n = BitVec.twoPow 8 (7 - n) := by
  revert n
  decide

/-- The position BIT_MID is about to write is the highest of the uncaptured ones. -/
theorem State.UncapturedBitsAreZero.next_position {s : State} (h : s.UncapturedBitsAreZero) (hst : s.st = .receivingByte)
    (hindex : s.bitIndex.toNat < 7) : s.acc.getLsbD (7 - (s.bitIndex.toNat + 1)) = false := by
  have htop : (s.acc <<< (s.bitIndex.toNat + 1)).getLsbD 7 = false := by rw [h hst]; rfl
  simpa [hindex, -BitVec.getLsbD_eq_getElem] using htop

/-- Settles O4: the selection is the guard's, the effect is one inserted bit, and inside a byte every other word falls
through to the branch of the decode that corner cases (d) and (e) name. -/
theorem bitMidCapturesTheNextBit : Obligations.BitMidCapturesTheNextBit := by
  unfold Obligations.BitMidCapturesTheNextBit
  intro s nd od
  refine ⟨fun w a => ?selection, fun hle => ?effect, fun hst w a => ⟨fun hw => ?idle, ?start, ?stop⟩⟩
  case selection =>
    rw [State.decode_eq_bitMid_iff, State.guardBitMid_iff, SampleWord.eq_pack_rise_iff]
    tauto
  case effect =>
    have hindex : s.bitIndex.toNat < 7 := by bv_omega
    refine ⟨s.captureNext nd, rfl, rfl, rfl, fun p hp => insertBit_getLsbD _ _ _ _ hp, fun hst hzero => ?_⟩
    rw [topBit_shiftRight hindex]
    exact insertBit_eq_or (hzero.next_position hst hindex) nd
  case idle =>
    obtain ⟨hstart, hstop, hrise⟩ := SampleWord.no_condition_no_clkRise hw
    simp [State.decode_receivingByte hst, hstart, hstop, hrise]
  case start =>
    intro hw
    simp [State.decode_receivingByte hst, (SampleWord.startEdge_iff w).2 hw]
  case stop =>
    intro hw
    exact State.decode_of_guardStop ((s.guardStop_iff w).2 ⟨hw, .inr hst⟩) a

end Machine

end Sys2Proof
end

section
/-! PROOFS. The drive commands (42_address_ack.md rule R165). Said once for every port: the events a step adds are a
function of the state at tick entry and of the operation the tick selects. -/

namespace Sys2Proof.Machine

/-- The events that operation `i` emits when it runs on `s`, in the order of 20_memory.md rule R65. -/
def State.eventsOf (s : State) : Instr → List Event
  | .start => [.notify .started]
  | .stop => [.notify .stopped]
  | .bitFirst _ _ => []
  | .bitMid _ _ => []
  | .bitLastAddrAck _ _ => [.notify .started, .drive .low]
  | .bitLastAddrIgnore _ _ => []
  | .bitLastDataAck nd _ => [(s.captureLast nd).byteEvent, .drive .low]
  | .bitLastDataNack nd _ => [(s.captureLast nd).byteEvent, .notify .stopped, .drive .high]
  | .idle _ => []

/-- A step appends exactly the events of the operation it runs. -/
theorem events_of_step {s t : State} (h : step s = .next t) : t.events = s.events ++ s.eventsOf s.nextInstr := by
  cases step_cases h with
  | start _ op eq => rw [eq, op]; rfl
  | stop _ op eq => rw [eq, op]; rfl
  | bitFirst _ _ _ _ op eq => rw [eq, op]; exact (List.append_nil _).symm
  | bitMid _ _ _ _ op eq => rw [eq, op]; exact (List.append_nil _).symm
  | addrAck _ _ _ _ _ _ op eq => rw [eq, op]; rfl
  | addrIgnore _ _ _ _ _ _ op eq => rw [eq, op]; exact (List.append_nil _).symm
  | dataAck _ _ _ _ _ _ op eq => rw [eq, op]; rfl
  | dataNack _ _ _ _ _ _ op eq => rw [eq, op]; rfl
  | idle _ _ _ _ _ op eq => rw [eq, op]; exact (List.append_nil _).symm

theorem newEvents_of_step {s t : State} (h : step s = .next t) : newEvents s t = s.eventsOf s.nextInstr :=
  newEvents_append (events_of_step h)

/-- Handing a byte to the provider is no drive command, whichever entry point the direction selects. -/
theorem State.byteEvent_drivePort (s : State) : s.byteEvent.drivePort = none := by
  cases hdir : s.dir <;> simp [State.byteEvent, hdir]

/-- Settles O35: among the events of each operation, only the three completions that drive the line show at the drive
port. -/
theorem driveCommandsExactly : Obligations.DriveCommandsExactly := by
  unfold Obligations.DriveCommandsExactly
  refine ⟨fun s t h => ?_, rfl⟩
  rw [newEvents_of_step h]
  cases s.nextInstr with
  | start => rfl
  | stop => rfl
  | bitFirst nd od => rfl
  | bitMid nd od => rfl
  | bitLastAddrAck nd od => rfl
  | bitLastAddrIgnore nd od => rfl
  | bitLastDataAck nd od => exact List.filterMap_cons_none (State.byteEvent_drivePort _)
  | bitLastDataNack nd od => exact List.filterMap_cons_none (State.byteEvent_drivePort _)
  | idle w => rfl

end Sys2Proof.Machine
end

section
/-! PROOFS. Address framing (42_address_ack.md rules R160 to R162). A frame is an address with one bit appended, and the
masks of the rules are appended words too, so each law is a law of `++`. -/

namespace Sys2Proof.Machine

/-! ### An address and the bit appended to it -/

/-- Appending a bit is the shift of rule R160, which loses no bit of the address. -/
theorem append_bit_eq_shiftLeft_or (a : Address) (x : BitVec 1) : a ++ x = (a.setWidth 8 <<< 1) ||| x.setWidth 8 :=
  (BitVec.setWidth_eq _).symm.trans BitVec.setWidth_append_eq_shiftLeft_setWidth_or

theorem extractAddress_append_bit (a : Address) (x : BitVec 1) : extractAddress (a ++ x) = a :=
  BitVec.extractLsb'_append_eq_left

theorem extractDirection_append_bit (a : Address) (x : BitVec 1) :
    extractDirection (a ++ x) = .ofBit (x.getLsbD 0) := by
  rw [extractDirection, BitVec.getLsbD_append]
  rfl

/-- Every byte is its address with its low bit appended. -/
theorem extractAddress_append_lowBit (b : Byte) : extractAddress b ++ b.extractLsb' 0 1 = b :=
  BitVec.extractLsb'_append_extractLsb'

/-! ### The two frames -/

theorem writeFrame_eq_shiftLeft (a : Address) : writeFrame a = a.setWidth 8 <<< 1 :=
  (append_bit_eq_shiftLeft_or a 0#1).trans BitVec.or_zero

theorem readFrame_eq_shiftLeft_or (a : Address) : readFrame a = (a.setWidth 8 <<< 1) ||| 0x01 :=
  append_bit_eq_shiftLeft_or a 1#1

theorem writeFrame_and_0xFE (a : Address) : writeFrame a &&& 0xFE = writeFrame a := by
  change (a ++ 0#1) &&& (BitVec.allOnes 7 ++ 0#1) = a ++ 0#1
  rw [BitVec.and_append, BitVec.and_allOnes, BitVec.and_self]

theorem writeFrame_and_one (a : Address) : writeFrame a &&& 1 = 0 := by
  change (a ++ 0#1) &&& (0#7 ++ 1#1) = 0#7 ++ 0#1
  rw [BitVec.and_append, BitVec.and_zero, BitVec.zero_and]

theorem readFrame_eq_writeFrame_or_one (a : Address) : readFrame a = writeFrame a ||| 1 := by
  rw [writeFrame_eq_shiftLeft]
  exact readFrame_eq_shiftLeft_or a

@[simp] theorem extractAddress_writeFrame (a : Address) : extractAddress (writeFrame a) = a :=
  extractAddress_append_bit a 0#1

@[simp] theorem extractAddress_readFrame (a : Address) : extractAddress (readFrame a) = a :=
  extractAddress_append_bit a 1#1

@[simp] theorem extractDirection_writeFrame (a : Address) : extractDirection (writeFrame a) = .write :=
  extractDirection_append_bit a 0#1

@[simp] theorem extractDirection_readFrame (a : Address) : extractDirection (readFrame a) = .read :=
  extractDirection_append_bit a 1#1

/-! ### Extraction and match -/

/-- Extraction is the shift of rule R161. -/
theorem extractAddress_eq_shiftRight (b : Byte) : extractAddress b = (b >>> 1).setWidth 7 :=
  BitVec.eq_of_toNat_eq rfl

theorem Direction.ofBit_eq_read_iff (b : Bool) : Direction.ofBit b = .read ↔ b = true := by
  cases b <;> decide

theorem Direction.ofBit_eq_write_iff (b : Bool) : Direction.ofBit b = .write ↔ b = false := by
  cases b <;> decide

theorem matchesAddress_iff (b : Byte) (a : Address) : matchesAddress b a = true ↔ extractAddress b = a :=
  beq_iff_eq

/-- The bytes with address `a` are its two frames: the low bit has two values. -/
theorem extractAddress_eq_iff_frame (b : Byte) (a : Address) :
    extractAddress b = a ↔ b = writeFrame a ∨ b = readFrame a := by
  constructor
  · rintro rfl
    have hb := extractAddress_append_lowBit b
    rcases BitVec.eq_zero_or_eq_one (b.extractLsb' 0 1) with hbit | hbit
    · rw [hbit] at hb
      exact .inl hb.symm
    · rw [hbit] at hb
      exact .inr hb.symm
  · rintro (rfl | rfl)
    · exact extractAddress_writeFrame a
    · exact extractAddress_readFrame a

/-- Settles O24: the framing laws of the two frames, then the extraction and match laws of every byte. -/
theorem addressFramingRoundTrip : Obligations.AddressFramingRoundTrip := by
  unfold Obligations.AddressFramingRoundTrip
  refine ⟨fun a => ⟨?shift, readFrame_eq_shiftLeft_or a, writeFrame_and_one a, readFrame_eq_writeFrame_or_one a,
      extractAddress_writeFrame a, extractDirection_writeFrame a, extractAddress_readFrame a,
      extractDirection_readFrame a⟩,
    fun b a => ⟨extractAddress_eq_shiftRight b, Direction.ofBit_eq_read_iff _, Direction.ofBit_eq_write_iff _,
      matchesAddress_iff b a, (matchesAddress_iff b a).trans (extractAddress_eq_iff_frame b a)⟩⟩
  case shift => rw [← writeFrame_eq_shiftLeft, writeFrame_and_0xFE]

end Sys2Proof.Machine
end

section
/-! PROOFS. A rejected payload byte (60_exceptions.md rule R193). The completing tick can select nothing but DATA_NACK, whose
step sets no flag but `jAcked`; in Stopped only `jStopped` hides a START, and inside a byte it was clear. -/

namespace Sys2Proof.Machine

theorem State.decode_of_guardStart {s : State} {w : SampleWord} (h : s.guardStart w = true) (a : Bool) :
    s.decode w a = .start := by
  simp [State.decode, h]

theorem State.decode_of_guardBitLast {s : State} {w : SampleWord} (h : s.guardBitLast w = true) (a : Bool) :
    s.decode w a = s.completion w.nd w.od a := by
  obtain ⟨hst, hrise, hindex⟩ := (s.guardBitLast_iff w).1 h
  obtain ⟨hstart, hstop⟩ := SampleWord.no_condition_of_clkRise hrise
  simp [State.decode_receivingByte hst, hstart, hstop, hrise, hindex]

/-- A payload byte that completes and is rejected is DATA_NACK (42_address_ack.md rule R150). -/
theorem State.nextInstr_of_rejected {s : State} (hlast : s.guardBitLast s.currentWord = true)
    (hcount : s.byteCount ≠ 0#8) (hreject : s.accept = false) :
    s.nextInstr = .bitLastDataNack s.currentWord.nd s.currentWord.od := by
  rw [State.nextInstr, State.decode_of_guardBitLast hlast]
  simp [State.completion, hcount, hreject]

/-- What a tick that selects DATA_NACK does, when its calls return: the transaction ends without a STOP. -/
theorem step_of_bitLastDataNack {s : State} {nd od : Bool} (hop : s.nextInstr = .bitLastDataNack nd od)
    (hret : s.currentTick.returns = true) :
    ∃ t, step s = .next t ∧ t.st = .stopped ∧ t.jStopped = s.jStopped := by
  rw [step_of_not_stuck (callIsStuck_of_returns hret), hop]
  exact ⟨_, rfl, rfl, rfl⟩

/-- In Stopped a START pattern is recognised unless it comes right after a STOP. -/
theorem State.nextInstr_start_of_stopped {s : State} (hst : s.st = .stopped) (hflag : s.jStopped = false)
    (hword : s.currentWord = 0x7) : s.nextInstr = .start :=
  State.decode_of_guardStart ((s.guardStart_iff _).2 ⟨hword, .inl ⟨.inl hst, hflag⟩⟩) _

/-- Settles O47: the tick runs DATA_NACK, among whose events is the Drive(High), and leaves `jStopped` clear as it was
inside the byte, so the next tick's START pattern passes its guard. -/
theorem rejectedByteDoesNotStopTheMachine : Obligations.RejectedByteDoesNotStopTheMachine := by
  unfold Obligations.RejectedByteDoesNotStopTheMachine
  intro s hclean hlast hcount hreject hret
  obtain ⟨hreceiving, -, -⟩ := (s.guardBitLast_iff _).1 hlast
  obtain ⟨-, hflag, -, -⟩ := hclean hreceiving
  have hop := State.nextInstr_of_rejected hlast hcount hreject
  obtain ⟨t, hstep, hstopped, hkept⟩ := step_of_bitLastDataNack hop hret
  refine ⟨t, hstep, hstopped, ?driven, State.nextInstr_start_of_stopped hstopped (hkept.trans hflag)⟩
  rw [newEvents_of_step hstep, hop]
  simp [State.eventsOf]

end Sys2Proof.Machine
end

section
/-! PROOFS. Decode and encode (30_encoding.md rules R90, R92). One equivalence, `State.decode_eq_iff`, says when a word
selects an operation: it is the operation's own word, and the operation's guard and outcome condition hold. -/

namespace Sys2Proof

theorem Instr.encode_fits_row (i : Instr) : i.row.fits i.encode = true := by
  cases i with
  | start => exact Laws.EncodingFitsRow.start
  | stop => exact Laws.EncodingFitsRow.stop
  | bitFirst nd od => exact Laws.EncodingFitsRow.bitFirst nd od
  | bitMid nd od => exact Laws.EncodingFitsRow.bitMid nd od
  | bitLastAddrAck nd od => exact Laws.EncodingFitsRow.bitLastAddrAck nd od
  | bitLastAddrIgnore nd od => exact Laws.EncodingFitsRow.bitLastAddrIgnore nd od
  | bitLastDataAck nd od => exact Laws.EncodingFitsRow.bitLastDataAck nd od
  | bitLastDataNack nd od => exact Laws.EncodingFitsRow.bitLastDataNack nd od
  | idle w => exact Laws.EncodingFitsRow.idle w

@[simp] theorem SampleWord.clkFall_pack (nd od : Bool) : (SampleWord.pack nd false od true).clkFall = true := by
  simp [SampleWord.clkFall]

@[simp] theorem SampleWord.clkRise_pack (nd od : Bool) : (SampleWord.pack nd true od false).clkRise = true := by
  simp [SampleWord.clkRise]

/-- A falling clock edge is no START and no STOP pattern, whose clock stays high. -/
theorem SampleWord.no_condition_of_clkFall {w : SampleWord} (h : w.clkFall = true) :
    w.startEdge = false ∧ w.stopEdge = false := by
  obtain ⟨hstart, hstop, -⟩ := SampleWord.no_condition_no_clkRise (.inl h)
  exact ⟨hstart, hstop⟩

namespace Machine

/-! ### The guard and outcome condition of each operation, as a proposition -/

variable (s : State) (a nd od : Bool) (w : SampleWord)

theorem selectedAt_start_iff : Instr.start.selectedAt s a = true ↔
    ((s.st = .stopped ∨ s.st = .started) ∧ s.jStopped = false) ∨ s.st = .receivingByte := by
  simp [Instr.selectedAt]

theorem selectedAt_stop_iff : Instr.stop.selectedAt s a = true ↔ s.st = .started ∨ s.st = .receivingByte := by
  simp [Instr.selectedAt]

theorem selectedAt_bitFirst_iff : (Instr.bitFirst nd od).selectedAt s a = true ↔
    s.st = .started ∧ s.jStarted = false ∧ s.jStopped = false ∧ s.jAcked = false := by
  simp [Instr.selectedAt, State.anyFlag, and_assoc]

theorem selectedAt_bitMid_iff : (Instr.bitMid nd od).selectedAt s a = true ↔
    s.st = .receivingByte ∧ s.bitIndex ≤ 5#3 := by
  simp [Instr.selectedAt]

theorem selectedAt_addrAck_iff : (Instr.bitLastAddrAck nd od).selectedAt s a = true ↔
    s.st = .receivingByte ∧ s.bitIndex = 6#3 ∧ s.byteCount = 0#8 ∧ s.acc.extractLsb' 1 7 = s.addr := by
  simp [Instr.selectedAt, matchesAddress, extractAddress_insertBit_zero, and_assoc]

theorem selectedAt_addrIgnore_iff : (Instr.bitLastAddrIgnore nd od).selectedAt s a = true ↔
    s.st = .receivingByte ∧ s.bitIndex = 6#3 ∧ s.byteCount = 0#8 ∧ s.acc.extractLsb' 1 7 ≠ s.addr := by
  simp [Instr.selectedAt, matchesAddress, extractAddress_insertBit_zero, and_assoc]

theorem selectedAt_dataAck_iff : (Instr.bitLastDataAck nd od).selectedAt s a = true ↔
    s.st = .receivingByte ∧ s.bitIndex = 6#3 ∧ s.byteCount ≠ 0#8 ∧ a = true := by
  simp [Instr.selectedAt, and_assoc]

theorem selectedAt_dataNack_iff : (Instr.bitLastDataNack nd od).selectedAt s a = true ↔
    s.st = .receivingByte ∧ s.bitIndex = 6#3 ∧ s.byteCount ≠ 0#8 ∧ a = false := by
  simp [Instr.selectedAt, and_assoc]

theorem selectedAt_idle_iff : (Instr.idle w).selectedAt s a = true ↔
    s.guardStart w = false ∧ s.guardStop w = false ∧ s.guardBitFirst w = false ∧ s.guardBitMid w = false ∧
      s.guardBitLast w = false := by
  simp [Instr.selectedAt, and_assoc]

variable {s a nd od w}

/-! ### A guard that holds decides the decode, whichever its place in the priority list -/

theorem State.decode_of_guardBitFirst (h : s.guardBitFirst w = true) (a : Bool) :
    s.decode w a = .bitFirst w.nd w.od := by
  obtain ⟨-, -, hfall⟩ := (s.guardBitFirst_iff w).1 h
  obtain ⟨hstart, hstop⟩ := SampleWord.no_condition_of_clkFall hfall
  simp [State.decode, State.guardStart, State.guardStop, hstart, hstop, h]

theorem State.decode_of_no_guard (h : (Instr.idle w).selectedAt s a = true) : s.decode w a = .idle w := by
  obtain ⟨h1, h2, h3, h4, h5⟩ := (selectedAt_idle_iff s a w).1 h
  simp [State.decode, h1, h2, h3, h4, h5]

theorem State.completion_addrAck (h0 : s.byteCount = 0#8) (hsame : s.acc.extractLsb' 1 7 = s.addr) :
    s.completion nd od a = .bitLastAddrAck nd od := by
  simp [State.completion, matchesAddress, extractAddress_insertBit_zero, h0, hsame]

theorem State.completion_addrIgnore (h0 : s.byteCount = 0#8) (hother : s.acc.extractLsb' 1 7 ≠ s.addr) :
    s.completion nd od a = .bitLastAddrIgnore nd od := by
  simp [State.completion, matchesAddress, extractAddress_insertBit_zero, h0, hother]

theorem State.completion_dataAck (h0 : s.byteCount ≠ 0#8) : s.completion nd od true = .bitLastDataAck nd od := by
  simp [State.completion, h0]

theorem State.completion_dataNack (h0 : s.byteCount ≠ 0#8) : s.completion nd od false = .bitLastDataNack nd od := by
  simp [State.completion, h0]

/-- The word of a completion, where one is due, asks for its outcome. -/
theorem State.decode_pack_rise (hst : s.st = .receivingByte) (hindex : s.bitIndex = 6#3) :
    s.decode (.pack nd true od false) a = s.completion nd od a := by
  have hguard : s.guardBitLast (.pack nd true od false) = true :=
    (s.guardBitLast_iff _).2 ⟨hst, SampleWord.clkRise_pack nd od, hindex⟩
  simpa using State.decode_of_guardBitLast hguard a

/-! ### The decode inverts the encoding -/

theorem State.decode_encode {i : Instr} (h : i.selectedAt s a = true) : s.decode i.encode a = i := by
  cases i with
  | start => exact State.decode_of_guardStart ((s.guardStart_iff _).2 ⟨rfl, (selectedAt_start_iff s a).1 h⟩) a
  | stop => exact State.decode_of_guardStop ((s.guardStop_iff _).2 ⟨rfl, (selectedAt_stop_iff s a).1 h⟩) a
  | bitFirst nd od =>
    obtain ⟨hst, hflags⟩ := (selectedAt_bitFirst_iff s a nd od).1 h
    have hguard := (s.guardBitFirst_iff _).2 ⟨hst, hflags, SampleWord.clkFall_pack nd od⟩
    simpa [Instr.encode] using State.decode_of_guardBitFirst hguard a
  | bitMid nd od =>
    obtain ⟨hst, hindex⟩ := (selectedAt_bitMid_iff s a nd od).1 h
    have hguard := (s.guardBitMid_iff _).2 ⟨hst, SampleWord.clkRise_pack nd od, hindex⟩
    simpa [Instr.encode] using State.decode_of_guardBitMid hguard a
  | bitLastAddrAck nd od =>
    obtain ⟨hst, hindex, h0, hsame⟩ := (selectedAt_addrAck_iff s a nd od).1 h
    exact (State.decode_pack_rise hst hindex).trans (State.completion_addrAck h0 hsame)
  | bitLastAddrIgnore nd od =>
    obtain ⟨hst, hindex, h0, hother⟩ := (selectedAt_addrIgnore_iff s a nd od).1 h
    exact (State.decode_pack_rise hst hindex).trans (State.completion_addrIgnore h0 hother)
  | bitLastDataAck nd od =>
    obtain ⟨hst, hindex, h0, rfl⟩ := (selectedAt_dataAck_iff s a nd od).1 h
    exact (State.decode_pack_rise hst hindex).trans (State.completion_dataAck h0)
  | bitLastDataNack nd od =>
    obtain ⟨hst, hindex, h0, rfl⟩ := (selectedAt_dataNack_iff s a nd od).1 h
    exact (State.decode_pack_rise hst hindex).trans (State.completion_dataNack h0)
  | idle w => exact State.decode_of_no_guard h

theorem State.encode_completion (s : State) (nd od a : Bool) :
    (s.completion nd od a).encode = .pack nd true od false := by
  rcases s.completion_cases nd od a with ⟨-, -, h⟩ | ⟨-, -, h⟩ | ⟨-, -, h⟩ | ⟨-, -, h⟩ <;> rw [h] <;> rfl

theorem State.encode_decode (s : State) (w : SampleWord) (a : Bool) : (s.decode w a).encode = w := by
  rcases s.decode_cases w a with ⟨g, d⟩ | ⟨g, d⟩ | ⟨g, d⟩ | ⟨g, d⟩ | ⟨g, d⟩ | ⟨-, -, -, -, -, d⟩ <;> rw [d]
  · exact ((s.guardStart_iff w).1 g).left.symm
  · exact ((s.guardStop_iff w).1 g).left.symm
  · obtain ⟨-, -, hfall⟩ := (s.guardBitFirst_iff w).1 g
    exact (w.clkFall_iff.1 hfall).symm
  · obtain ⟨-, hrise, -⟩ := (s.guardBitMid_iff w).1 g
    exact (w.clkRise_iff.1 hrise).symm
  · obtain ⟨-, hrise, -⟩ := (s.guardBitLast_iff w).1 g
    rw [State.encode_completion, ← w.clkRise_iff.1 hrise]
  · rfl

theorem State.selectedAt_completion (hst : s.st = .receivingByte) (hindex : s.bitIndex = 6#3) (nd od a : Bool) :
    (s.completion nd od a).selectedAt s a = true := by
  rcases s.completion_cases nd od a with ⟨h0, ha, c⟩ | ⟨h0, ha, c⟩ | ⟨h0, ha, c⟩ | ⟨h0, ha, c⟩ <;> rw [c]
  · exact (selectedAt_addrAck_iff s a nd od).2 ⟨hst, hindex, h0, ha⟩
  · exact (selectedAt_addrIgnore_iff s a nd od).2 ⟨hst, hindex, h0, ha⟩
  · exact (selectedAt_dataAck_iff s a nd od).2 ⟨hst, hindex, h0, ha⟩
  · exact (selectedAt_dataNack_iff s a nd od).2 ⟨hst, hindex, h0, ha⟩

theorem State.selectedAt_decode (s : State) (w : SampleWord) (a : Bool) : (s.decode w a).selectedAt s a = true := by
  rcases s.decode_cases w a with ⟨g, d⟩ | ⟨g, d⟩ | ⟨g, d⟩ | ⟨g, d⟩ | ⟨g, d⟩ | ⟨g1, g2, g3, g4, g5, d⟩ <;> rw [d]
  · exact (selectedAt_start_iff s a).2 ((s.guardStart_iff w).1 g).right
  · exact (selectedAt_stop_iff s a).2 ((s.guardStop_iff w).1 g).right
  · obtain ⟨hst, hflags, -⟩ := (s.guardBitFirst_iff w).1 g
    exact (selectedAt_bitFirst_iff s a _ _).2 ⟨hst, hflags⟩
  · obtain ⟨hst, -, hindex⟩ := (s.guardBitMid_iff w).1 g
    exact (selectedAt_bitMid_iff s a _ _).2 ⟨hst, hindex⟩
  · obtain ⟨hst, -, hindex⟩ := (s.guardBitLast_iff w).1 g
    exact State.selectedAt_completion hst hindex _ _ _
  · exact (selectedAt_idle_iff s a w).2 ⟨g1, g2, g3, g4, g5⟩

/-- When a word selects an operation. -/
theorem State.decode_eq_iff (s : State) (w : SampleWord) (a : Bool) (i : Instr) :
    s.decode w a = i ↔ w = i.encode ∧ i.selectedAt s a = true := by
  constructor
  · rintro rfl
    exact ⟨(s.encode_decode w a).symm, s.selectedAt_decode w a⟩
  · rintro ⟨rfl, h⟩
    exact State.decode_encode h

/-- Settles O15: the guard of the selected operation pins every bit of the word that its row leaves to no operand. -/
theorem encodeOfDecodeIsTheWord : Obligations.EncodeOfDecodeIsTheWord := by
  unfold Obligations.EncodeOfDecodeIsTheWord
  intro s w a
  have hencode := s.encode_decode w a
  have hfits := (s.decode w a).encode_fits_row
  rw [hencode] at hfits
  exact ⟨hencode, hfits⟩

/-- Settles O16: an operation's own word is the one word whose decode its guard and outcome condition decide. -/
theorem decodeOfEncodeIsTheOperation : Obligations.DecodeOfEncodeIsTheOperation := by
  unfold Obligations.DecodeOfEncodeIsTheOperation
  intro i s a
  rw [State.decode_eq_iff]
  exact (and_iff_right rfl).symm

end Machine

end Sys2Proof
end

section
/-! PROOFS. The decode by protocol state (30_encoding.md rule R91, 43_idle.md rule R181). In each of the three states the
decode is one equation over the edges of the word; the cells of the matrix and what IDLE absorbs are read off it. -/

namespace Sys2Proof

theorem SampleWord.clkFall_iff_mem (w : SampleWord) : w.clkFall = true ↔ w ∈ ([0x1, 0x3, 0x9, 0xB] : List SampleWord) := by
  revert w
  decide

theorem SampleWord.clkRise_iff_mem (w : SampleWord) : w.clkRise = true ↔ w ∈ ([0x4, 0x6, 0xC, 0xE] : List SampleWord) := by
  revert w
  decide

/-- The words with no edge on the clock and no condition: no change at all, or a data change while the clock is low. -/
theorem SampleWord.no_edge_of_mem {w : SampleWord} (h : w ∈ ([0x0, 0x5, 0xA, 0xF, 0x2, 0x8] : List SampleWord)) :
    w.startEdge = false ∧ w.stopEdge = false ∧ w.clkFall = false ∧ w.clkRise = false := by
  revert w
  decide

theorem SampleWord.no_clkFall_of_clkRise {w : SampleWord} (h : w.clkRise = true) : w.clkFall = false := by
  revert w
  decide

namespace Machine

variable {s : State}

theorem State.decode_stopped (hst : s.st = .stopped) (w : SampleWord) (a : Bool) :
    s.decode w a = if w = 0x7 ∧ s.jStopped = false then .start else .idle w := by
  simp [State.decode, State.guardStart, State.guardStop, State.guardBitFirst, State.guardBitMid, State.guardBitLast, hst]

theorem State.decode_started (hst : s.st = .started) (w : SampleWord) (a : Bool) :
    s.decode w a =
      if w = 0x7 ∧ s.jStopped = false then .start
      else if w = 0xD then .stop
      else if w.clkFall = true ∧ s.anyFlag = false then .bitFirst w.nd w.od
      else .idle w := by
  simp [State.decode, State.guardStart, State.guardStop, State.guardBitFirst, State.guardBitMid, State.guardBitLast, hst,
    and_comm]

/-- On a falling edge the decode asks whether a byte may begin. -/
theorem State.decode_clkFall {w : SampleWord} (hfall : w.clkFall = true) (s : State) (a : Bool) :
    s.decode w a = if s.st = .started ∧ s.anyFlag = false then .bitFirst w.nd w.od else .idle w := by
  obtain ⟨hstart, hstop, hrise⟩ := SampleWord.no_condition_no_clkRise (.inl hfall)
  simp [State.decode, State.guardStart, State.guardStop, State.guardBitFirst, State.guardBitMid, State.guardBitLast, *]

/-- On a rising edge the decode asks how far a byte has come. -/
theorem State.decode_clkRise {w : SampleWord} (hrise : w.clkRise = true) (s : State) (a : Bool) :
    s.decode w a =
      if s.st = .receivingByte ∧ s.bitIndex ≤ 5#3 then .bitMid w.nd w.od
      else if s.st = .receivingByte ∧ s.bitIndex = 6#3 then s.completion w.nd w.od a
      else .idle w := by
  obtain ⟨hstart, hstop⟩ := SampleWord.no_condition_of_clkRise hrise
  have hfall := SampleWord.no_clkFall_of_clkRise hrise
  simp [State.decode, State.guardStart, State.guardStop, State.guardBitFirst, State.guardBitMid, State.guardBitLast, *]

/-- A `bitIndex` that is neither 6 nor 7 is one that BIT_MID goes on from. -/
theorem bitIndex_le_five_iff (k : BitIndex) : k ≤ 5#3 ↔ k ≠ 7#3 ∧ k ≠ 6#3 := by
  revert k
  decide

/-- Settles O14: the three equations, with the falling and the rising edges as sets of words. -/
theorem decodeMatrix : Obligations.DecodeMatrix := by
  unfold Obligations.DecodeMatrix
  intro s w a
  refine ⟨fun hst => State.decode_stopped hst w a, fun hst => ?started, fun hst => ?receiving⟩
  case started => simp only [State.decode_started hst, SampleWord.clkFall_iff_mem]
  case receiving =>
    simp only [State.decode_receivingByte hst, SampleWord.startEdge_iff, SampleWord.stopEdge_iff,
      SampleWord.clkRise_iff_mem, bitIndex_le_five_iff]
    by_cases hrise : w ∈ ([0x4, 0x6, 0xC, 0xE] : List SampleWord)
    · simp only [hrise, true_and, if_true]
      by_cases h7 : s.bitIndex = 7#3
      · simp [h7]
      · by_cases h6 : s.bitIndex = 6#3 <;> simp [h7, h6]
    · simp only [hrise, false_and, if_false]

/-- Settles O52: in Stopped the decode asks one question. -/
theorem stoppedRunsOnlyStartOrIdle : Obligations.StoppedRunsOnlyStartOrIdle := by
  unfold Obligations.StoppedRunsOnlyStartOrIdle
  intro s w a hst
  rw [State.decode_stopped hst]
  split
  · exact .inl rfl
  · exact .inr rfl

/-! ### What IDLE absorbs -/

/-- A word with none of the four edges is IDLE in every state. -/
theorem State.decode_of_no_edge {w : SampleWord}
    (h : w.startEdge = false ∧ w.stopEdge = false ∧ w.clkFall = false ∧ w.clkRise = false) (a : Bool) :
    s.decode w a = .idle w := by
  obtain ⟨hstart, hstop, hfall, hrise⟩ := h
  exact State.decode_of_no_guard ((selectedAt_idle_iff s a w).2
    (by simp [State.guardStart, State.guardStop, State.guardBitFirst, State.guardBitMid, State.guardBitLast, *]))

/-- Outside Started with the flags clear, a falling edge is IDLE. -/
theorem State.decode_of_clkFall {w : SampleWord} (hfall : w.clkFall = true)
    (h : s.st = .stopped ∨ s.st = .receivingByte ∨ (s.st = .started ∧ s.anyFlag = true)) (a : Bool) :
    s.decode w a = .idle w := by
  rw [State.decode_clkFall hfall]
  obtain hst | hst | ⟨hst, hflag⟩ := h
  · simp [hst]
  · simp [hst]
  · simp [hflag]

/-- Outside a byte, a rising edge is IDLE. -/
theorem State.decode_of_clkRise {w : SampleWord} (hrise : w.clkRise = true)
    (h : s.st = .stopped ∨ s.st = .started) (a : Bool) : s.decode w a = .idle w := by
  rw [State.decode_clkRise hrise]
  obtain hst | hst := h <;> simp [hst]

theorem State.decode_stop_pattern_stopped (hst : s.st = .stopped) (a : Bool) : s.decode 0xD a = .idle 0xD :=
  State.decode_stopped hst 0xD a

/-- Outside a byte `jStopped` hides a START pattern, in Stopped and in the unreachable Started (decision D15). -/
theorem State.decode_start_pattern_hidden (hst : s.st = .stopped ∨ s.st = .started) (hflag : s.jStopped = true)
    (a : Bool) : s.decode 0x7 a = .idle 0x7 := by
  obtain hst | hst := hst
  · simp [State.decode_stopped hst, hflag]
  · simp [State.decode_started hst, hflag, SampleWord.clkFall_iff_mem]

/-- IDLE on a START or STOP pattern is a malformed sequence, of one of two kinds (rule R181 e, f). -/
theorem State.idle_on_condition_iff (hs : s.JStoppedMeansStopped) (w : SampleWord) (a : Bool) :
    ((w.startEdge = true ∨ w.stopEdge = true) ∧ s.decode w a = .idle w) ↔
      (w = 0xD ∧ s.st = .stopped) ∨ (w = 0x7 ∧ s.st = .stopped ∧ s.jStopped = true) := by
  rw [SampleWord.startEdge_iff, SampleWord.stopEdge_iff]
  constructor
  · rintro ⟨hw, hidle⟩
    obtain ⟨hstart, hstop, -⟩ := (selectedAt_idle_iff s a w).1 ((s.decode_eq_iff w a _).1 hidle).right
    rw [← Bool.not_eq_true, State.guardStart_iff] at hstart
    rw [← Bool.not_eq_true, State.guardStop_iff] at hstop
    obtain rfl | rfl := hw
    · have hflag : s.jStopped = true := by cases hst : s.st <;> simp_all
      exact .inr ⟨rfl, hs hflag, hflag⟩
    · have hst : s.st = .stopped := by cases hst : s.st <;> simp_all
      exact .inl ⟨rfl, hst⟩
  · rintro (⟨rfl, hst⟩ | ⟨rfl, hst, hflag⟩)
    · exact ⟨.inr rfl, State.decode_stop_pattern_stopped hst a⟩
    · exact ⟨.inl rfl, State.decode_start_pattern_hidden (.inl hst) hflag a⟩

/-- Settles O20: the items of rule R181, each from the edge it is about. -/
theorem ignoredSequencesRunIdle : Obligations.IgnoredSequencesRunIdle := by
  unfold Obligations.IgnoredSequencesRunIdle
  intro s w a
  exact ⟨fun hw => State.decode_of_no_edge (SampleWord.no_edge_of_mem hw) a,
    fun hfall hst => State.decode_of_clkFall hfall hst a,
    fun hrise hst => State.decode_of_clkRise hrise hst a,
    fun hst => State.decode_stop_pattern_stopped hst a,
    fun hst hflag => State.decode_start_pattern_hidden (.inl hst) hflag a,
    fun hs hw hidle => (State.idle_on_condition_iff hs w a).1 ⟨hw, hidle⟩⟩

/-- Settles O19: a rising edge counts up to index 6 only, and a START pattern not with `jStopped` set. -/
theorem unreachableStatesRunIdle : Obligations.UnreachableStatesRunIdle := by
  unfold Obligations.UnreachableStatesRunIdle
  refine fun s w a => ⟨fun _ h7 hrise => ?_,
    fun hst hflag => State.decode_start_pattern_hidden (.inr hst) hflag a⟩
  simp [State.decode_clkRise hrise, h7]

end Machine

end Sys2Proof
end

section
/-! PROOFS. Every step keeps the invariants (10_state.md rule R32). One lemma per invariant, each by the nine cases of a
step; a case that ends outside a byte has nothing to show for an invariant about the inside of one. -/

namespace Sys2Proof.Machine

variable {s t : State}

/-! ### Inside a byte -/

/-- A tick ends inside a byte by BIT_FIRST, BIT_MID or an IDLE. -/
theorem step_into_byte (h : step s = .next t) (hst : t.st = .receivingByte) :
    (∃ nd, s.guardBitFirst s.currentWord = true ∧
      t = { s.takeTick with bitIndex := 0, acc := firstBitByte nd, st := .receivingByte }) ∨
    (∃ nd, s.guardBitMid s.currentWord = true ∧
      t = { s.takeTick with acc := insertBit s.acc (7 - (s.bitIndex.toNat + 1)) nd, bitIndex := s.bitIndex + 1 }) ∨
    (s.st = .receivingByte ∧ t = s.takeTick.clearFlags) := by
  cases step_cases h with
  | start _ _ eq => subst eq; cases hst
  | stop _ _ eq => subst eq; cases hst
  | bitFirst nd _ guard _ _ eq => exact .inl ⟨nd, guard, eq⟩
  | bitMid nd _ guard _ _ eq => exact .inr (.inl ⟨nd, guard, eq⟩)
  | addrAck _ _ _ _ _ _ _ eq => subst eq; cases hst
  | addrIgnore _ _ _ _ _ _ _ eq => subst eq; cases hst
  | dataAck _ _ _ _ _ _ _ eq => subst eq; cases hst
  | dataNack _ _ _ _ _ _ _ eq => subst eq; cases hst
  | idle _ _ _ _ _ _ eq => subst eq; exact .inr (.inr ⟨hst, rfl⟩)

/-- R32 (a): BIT_FIRST finds the flags clear; BIT_MID moves the index up to 6 at most. -/
theorem step_keeps_receivingIsClean (hs : s.ReceivingIsClean) (h : step s = .next t) : t.ReceivingIsClean := by
  intro hst
  obtain ⟨nd, guard, rfl⟩ | ⟨nd, guard, rfl⟩ | ⟨hreceiving, rfl⟩ := step_into_byte h hst
  · obtain ⟨-, ⟨h1, h2, h3⟩, -⟩ := (s.guardBitFirst_iff _).1 guard
    exact ⟨h1, h2, h3, by simp⟩
  · obtain ⟨hreceiving, -, hindex⟩ := (s.guardBitMid_iff _).1 guard
    obtain ⟨h1, h2, h3, -⟩ := hs hreceiving
    exact ⟨h1, h2, h3, by simp only; bv_omega⟩
  · obtain ⟨-, -, -, hindex⟩ := hs hreceiving
    exact ⟨rfl, rfl, rfl, hindex⟩

/-- A shift to the left is 0 exactly where the bits it keeps are. -/
theorem shiftLeft_eq_zero_iff_getLsbD (acc : Byte) (k : Nat) :
    acc <<< k = 0#8 ↔ ∀ p, p + k < 8 → acc.getLsbD p = false := by
  constructor
  · intro h p hp
    have hbit : (acc <<< k).getLsbD (p + k) = false := by rw [h]; simp
    simpa [hp, -BitVec.getLsbD_eq_getElem] using hbit
  · intro h
    refine BitVec.eq_of_getLsbD_eq fun p hp => ?_
    rw [BitVec.getLsbD_shiftLeft, BitVec.getLsbD_zero]
    by_cases hpk : p < k
    · simp [hpk]
    · simp [hpk, h (p - k) (by omega)]

/-- Writing the position of arrival index `n + 1` leaves the positions below it as they were. -/
theorem insertBit_shiftLeft_eq_zero {acc : Byte} {n : Nat} (h : acc <<< (n + 1) = 0#8) (hn : n ≤ 5) (b : Bool) :
    insertBit acc (7 - (n + 1)) b <<< (n + 2) = 0#8 := by
  rw [shiftLeft_eq_zero_iff_getLsbD] at h ⊢
  intro p hp
  rw [insertBit_getLsbD _ _ _ _ (by omega), if_neg (by omega)]
  exact h p (by omega)

theorem firstBitByte_shiftLeft_one (b : Bool) : firstBitByte b <<< 1 = 0#8 := by
  cases b <;> decide

theorem step_keeps_uncapturedBitsAreZero (hs : s.UncapturedBitsAreZero) (h : step s = .next t) :
    t.UncapturedBitsAreZero := by
  intro hst
  obtain ⟨nd, guard, rfl⟩ | ⟨nd, guard, rfl⟩ | ⟨hreceiving, rfl⟩ := step_into_byte h hst
  · exact firstBitByte_shiftLeft_one nd
  · obtain ⟨hreceiving, -, hindex⟩ := (s.guardBitMid_iff _).1 guard
    have hle : s.bitIndex.toNat ≤ 5 := by bv_omega
    have hnext : (s.bitIndex + 1).toNat = s.bitIndex.toNat + 1 := by bv_omega
    simp only [hnext]
    exact insertBit_shiftLeft_eq_zero (hs hreceiving) hle nd
  · exact hs hreceiving

/-! ### The flag of STOP -/

theorem State.JStoppedMeansStopped.clear (hs : s.JStoppedMeansStopped) (hst : s.st ≠ .stopped) :
    s.jStopped = false :=
  Bool.eq_false_iff.2 fun hflag => hst (hs hflag)

theorem State.JStoppedMeansStopped.clear_of_guardBitLast {w : SampleWord} (hs : s.JStoppedMeansStopped)
    (guard : s.guardBitLast w = true) : s.jStopped = false := by
  obtain ⟨hreceiving, -⟩ := (s.guardBitLast_iff w).1 guard
  exact hs.clear (by simp [hreceiving])

/-- R32 (b): an operation that leaves for another state than Stopped ran with the flag clear, and none but STOP sets it. -/
theorem step_keeps_jStoppedMeansStopped (hs : s.JStoppedMeansStopped) (h : step s = .next t) :
    t.JStoppedMeansStopped := by
  intro hflag
  cases step_cases h with
  | start guard _ eq =>
    subst eq
    obtain ⟨-, ⟨-, hclear⟩ | hreceiving⟩ := (s.guardStart_iff _).1 guard
    · exact absurd hflag (by simp [hclear])
    · exact absurd hflag (by simp [hs.clear (by simp [hreceiving])])
  | stop _ _ eq => subst eq; rfl
  | bitFirst _ _ guard _ _ eq =>
    subst eq
    obtain ⟨-, ⟨-, hclear, -⟩, -⟩ := (s.guardBitFirst_iff _).1 guard
    exact absurd hflag (by simp [hclear])
  | bitMid _ _ _ _ _ eq => subst eq; exact hs hflag
  | addrAck _ _ guard _ _ _ _ eq => subst eq; exact absurd hflag (by simp [hs.clear_of_guardBitLast guard])
  | addrIgnore _ _ _ _ _ _ _ eq => subst eq; rfl
  | dataAck _ _ guard _ _ _ _ eq => subst eq; exact absurd hflag (by simp [hs.clear_of_guardBitLast guard])
  | dataNack _ _ _ _ _ _ _ eq => subst eq; rfl
  | idle _ _ _ _ _ _ eq => subst eq; cases hflag

/-! ### The latch and the byte count against the events -/

@[simp] theorem lastDriveWasLow_append_notify (es : List Event) (k : NotifyKind) :
    lastDriveWasLow (es ++ [.notify k]) = lastDriveWasLow es := by
  simp [lastDriveWasLow]

/-- A last drive command is the one that counts, whatever stands before it. -/
theorem lastDriveWasLow_append_drive (es fs : List Event) (l : Level) :
    lastDriveWasLow (es ++ (fs ++ [.drive l])) = (l == .low) := by
  cases l <;> simp [lastDriveWasLow]

/-- R32 (f). -/
theorem step_keeps_latchFollowsDrives (hs : s.LatchFollowsDrives) (h : step s = .next t) : t.LatchFollowsDrives := by
  unfold State.LatchFollowsDrives at hs ⊢
  cases step_cases h with
  | start _ _ eq => subst eq; simpa using hs
  | stop _ _ eq => subst eq; simpa using hs
  | bitFirst _ _ _ _ _ eq => subst eq; exact hs
  | bitMid _ _ _ _ _ eq => subst eq; exact hs
  | addrAck _ _ _ _ _ _ _ eq => subst eq; exact (lastDriveWasLow_append_drive s.events [.notify .started] .low).symm
  | addrIgnore _ _ _ _ _ _ _ eq => subst eq; exact hs
  | dataAck nd _ _ _ _ _ _ eq =>
    subst eq
    exact (lastDriveWasLow_append_drive s.events [(s.captureLast nd).byteEvent] .low).symm
  | dataNack nd _ _ _ _ _ _ eq =>
    subst eq
    exact (lastDriveWasLow_append_drive s.events [(s.captureLast nd).byteEvent, .notify .stopped] .high).symm
  | idle _ _ _ _ _ _ eq => subst eq; exact hs

/-- R32 (g): START clears the count with its notification, an acknowledge leaves it at least 1 with its drive. -/
theorem step_keeps_countFollowsEvents (hs : s.CountFollowsEvents) (h : step s = .next t) : t.CountFollowsEvents := by
  intro hst
  cases step_cases h with
  | start _ _ eq => subst eq; simp
  | stop _ _ eq => subst eq; exact absurd rfl hst
  | bitFirst _ _ guard _ _ eq =>
    subst eq
    obtain ⟨hstarted, -⟩ := (s.guardBitFirst_iff _).1 guard
    exact hs (by simp [hstarted])
  | bitMid _ _ _ _ _ eq => subst eq; exact hs hst
  | addrAck _ _ _ _ _ _ _ eq => subst eq; simp [countUp_ne_zero]
  | addrIgnore _ _ _ _ _ _ _ eq => subst eq; exact absurd rfl hst
  | dataAck _ _ _ _ _ _ _ eq => subst eq; simp [countUp_ne_zero]
  | dataNack _ _ _ _ _ _ _ eq => subst eq; exact absurd rfl hst
  | idle _ _ _ _ _ _ eq => subst eq; exact hs hst

/-- Settles O51: each of the five invariants is kept on its own. -/
theorem stepKeepsInvariants : Obligations.StepKeepsInvariants := by
  unfold Obligations.StepKeepsInvariants
  rintro s t ⟨hclean, hflag, hzero, hlatch, hcount⟩ h
  exact ⟨step_keeps_receivingIsClean hclean h, step_keeps_jStoppedMeansStopped hflag h,
    step_keeps_uncapturedBitsAreZero hzero h, step_keeps_latchFollowsDrives hlatch h,
    step_keeps_countFollowsEvents hcount h⟩

/-- A fresh decoder is in Stopped with no event, where each invariant is void or about equal reset values. -/
theorem State.fresh_inv (a : Address) (src : SampleSource) : (State.fresh a src).Inv :=
  ⟨nofun, fun _ => rfl, nofun, rfl, fun hst => absurd rfl hst⟩

/-- Settles O50: `State.reset` is a fresh decoder too. -/
theorem freshStateMeetsInvariants : Obligations.FreshStateMeetsInvariants := by
  unfold Obligations.FreshStateMeetsInvariants
  exact ⟨State.fresh_inv, State.fresh_inv _ _⟩

end Sys2Proof.Machine
end

section
/-! PROOFS. Noninterference of what nothing may read yet (10_state.md rule R35). Agreeing states present the same tick and
select the same operation; an operation run where it is selected keeps agreement, since it reads only what agrees. -/

namespace Sys2Proof.Machine

variable {s t : State}

/-! ### The tick of agreeing states is the same -/

theorem State.Agree.currentTick_eq (h : s.Agree t) : s.currentTick = t.currentTick := by
  obtain ⟨-, -, -, -, -, -, -, -, hticks, hno, -⟩ := h
  simp only [State.currentTick, hticks, hno]

theorem State.Agree.currentWord_eq (h : s.Agree t) : s.currentWord = t.currentWord := by
  have htick := h.currentTick_eq
  obtain ⟨-, -, -, -, -, hsource, hdata, hclock, -⟩ := h
  simp only [State.currentWord, htick, hsource, hdata, hclock]

theorem State.Agree.accept_eq (h : s.Agree t) : s.accept = t.accept := by
  have htick := h.currentTick_eq
  obtain ⟨-, -, -, -, -, -, -, -, -, hno, -⟩ := h
  simp only [State.accept, htick, hno]

theorem State.Agree.takeTick (h : s.Agree t) : s.takeTick.Agree t.takeTick := by
  have hword := h.currentWord_eq
  obtain ⟨hst, h1, h2, h3, haddr, hsource, hdata, hclock, hticks, hno, hevents, hrest⟩ := h
  exact ⟨hst, h1, h2, h3, haddr, hsource, by simp only [State.takeTick, hsource, hdata, hword],
    by simp only [State.takeTick, hsource, hclock, hword], by simp [hticks], by simp [hno], hevents, hrest⟩

/-! ### And so is the operation it selects -/

/-- Inside a byte the outcome of a completion depends on the zero test of the count, on `acc` and on ADDR. -/
theorem State.Agree.completion_eq (h : s.Agree t) (hst : s.st = .receivingByte) (nd od a : Bool) :
    s.completion nd od a = t.completion nd od a := by
  obtain ⟨-, -, -, -, haddr, -, -, -, -, -, -, hcount, -, hbyte⟩ := h
  obtain ⟨hacc, -⟩ := hbyte hst
  simp only [State.completion, hcount (by simp [hst]), hacc, haddr]

theorem State.Agree.decode_eq (h : s.Agree t) (w : SampleWord) (a : Bool) : s.decode w a = t.decode w a := by
  have hcompletion := h.completion_eq
  obtain ⟨hst, h1, h2, h3, -, -, -, -, -, -, -, -, -, hbyte⟩ := h
  cases hs : s.st with
  | stopped => rw [State.decode_stopped hs, State.decode_stopped (hst.symm.trans hs), h2]
  | started =>
    have hflags : s.anyFlag = t.anyFlag := by simp only [State.anyFlag, h1, h2, h3]
    rw [State.decode_started hs, State.decode_started (hst.symm.trans hs), hflags, h2]
  | receivingByte =>
    obtain ⟨-, hindex⟩ := hbyte hs
    rw [State.decode_receivingByte hs, State.decode_receivingByte (hst.symm.trans hs)]
    simp only [hindex, hcompletion hs]

theorem State.Agree.nextInstr_eq (h : s.Agree t) : s.nextInstr = t.nextInstr := by
  rw [State.nextInstr, h.decode_eq, h.currentWord_eq, h.accept_eq]
  rfl

theorem State.Agree.callIsStuck_eq (h : s.Agree t) : s.callIsStuck = t.callIsStuck := by
  rw [State.callIsStuck, h.nextInstr_eq, h.currentTick_eq]
  rfl

/-! ### What an operation makes of agreeing states -/

/-- Taking the tick changes nothing that a guard or an outcome condition reads. -/
theorem selectedAt_takeTick (i : Instr) (s : State) (a : Bool) : i.selectedAt s.takeTick a = i.selectedAt s a := by
  cases i <;> rfl

theorem outcomesAgree_exec {i : Instr} {a : Bool} (h : s.Agree t) (hsel : i.selectedAt s a = true) :
    outcomesAgree (exec i s) (exec i t) := by
  obtain ⟨hst, h1, h2, h3, haddr, hsource, hdata, hclock, hticks, hno, hevents, hcount, hdir, hbyte⟩ := h
  cases i with
  | start => simp [exec, execStart, outcomesAgree, State.Agree, *]
  | stop => simp [exec, execStop, outcomesAgree, State.Agree, *]
  | bitFirst nd od =>
    obtain ⟨hs, -⟩ := (selectedAt_bitFirst_iff s a nd od).1 hsel
    have hcount := hcount (by simp [hs])
    have hdir := hdir (by simp [hs])
    simp_all [exec, execBitFirst, outcomesAgree, State.Agree]
  | bitMid nd od =>
    obtain ⟨hs, -⟩ := (selectedAt_bitMid_iff s a nd od).1 hsel
    simp_all [exec, execBitMid, outcomesAgree, State.Agree]
  | bitLastAddrAck nd od =>
    simp_all [exec, execBitLastAddrAck, outcomesAgree, State.Agree, countUp_ne_zero,
      extractDirection_insertBit_zero]
  | bitLastAddrIgnore nd od =>
    simp_all [exec, execBitLastAddrIgnore, outcomesAgree, State.Agree]
  | bitLastDataAck nd od =>
    obtain ⟨hs, -, h0, -⟩ := (selectedAt_dataAck_iff s a nd od).1 hsel
    have hdir := hdir (by simp [hs]) h0
    simp_all [exec, execBitLastDataAck, outcomesAgree, State.Agree, countUp_ne_zero]
  | bitLastDataNack nd od =>
    obtain ⟨hs, -, h0, -⟩ := (selectedAt_dataNack_iff s a nd od).1 hsel
    have hdir := hdir (by simp [hs]) h0
    simp_all [exec, execBitLastDataNack, outcomesAgree, State.Agree]
  | idle w => simp_all [exec, execIdle, outcomesAgree, State.Agree]

theorem outcomesAgree_step (h : s.Agree t) : outcomesAgree (step s) (step t) := by
  cases hstuck : s.callIsStuck with
  | true =>
    rw [step_fault_of_stuck hstuck, step_fault_of_stuck (h.callIsStuck_eq.symm.trans hstuck)]
    rfl
  | false =>
    rw [step_of_not_stuck hstuck, step_of_not_stuck (h.callIsStuck_eq.symm.trans hstuck), ← h.nextInstr_eq]
    have hsel : s.nextInstr.selectedAt s s.accept = true := s.selectedAt_decode _ _
    exact outcomesAgree_exec h.takeTick ((selectedAt_takeTick _ _ _).trans hsel)

/-- Settles O53: the step keeps agreement; and the elements that agreement leaves free in Stopped and in Started are
those the statement frees. -/
theorem unreadElementsAreUnobservable : Obligations.UnreadElementsAreUnobservable := by
  unfold Obligations.UnreadElementsAreUnobservable
  refine ⟨fun s t h => outcomesAgree_step h, fun s d b k n p hst => ?_, fun s b k p hst => ?_⟩ <;> simp [State.Agree, hst]

end Sys2Proof.Machine
end

section
/-! PROOFS. Each operation: when it is selected and its whole effect (rules R110, R112, R130, R134, R151 to R154, R180).
The selection is `State.decode_eq_iff` with the operation's condition; the effect is the meaning, computed. -/

namespace Sys2Proof.Machine

variable {s : State} {w : SampleWord} {a nd od : Bool}

/-- An operation is selected on its own word where its condition holds. -/
theorem State.decode_eq_iff_of_selectedAt_iff {i : Instr} {P : Prop} (h : i.selectedAt s a = true ↔ P) :
    s.decode w a = i ↔ w = i.encode ∧ P := by
  rw [State.decode_eq_iff, h]

/-- Settles O1: the guard of rule R110, and its pseudocode as one record update. -/
theorem startClearsContextAndNotifies : Obligations.StartClearsContextAndNotifies := by
  unfold Obligations.StartClearsContextAndNotifies
  exact fun s => ⟨fun w a => State.decode_eq_iff_of_selectedAt_iff (selectedAt_start_iff s a), rfl⟩

/-- Settles O2: the guard of rule R112, and its pseudocode as one record update. -/
theorem stopNotifiesAndKeepsContext : Obligations.StopNotifiesAndKeepsContext := by
  unfold Obligations.StopNotifiesAndKeepsContext
  exact fun s => ⟨fun w a => State.decode_eq_iff_of_selectedAt_iff (selectedAt_stop_iff s a), rfl⟩

/-- Settles O3: the guard of rule R130; `{nd, 0b0000000}` is one of two bytes. -/
theorem bitFirstBeginsAByte : Obligations.BitFirstBeginsAByte := by
  unfold Obligations.BitFirstBeginsAByte
  refine fun s nd od =>
    ⟨fun w a => State.decode_eq_iff_of_selectedAt_iff (selectedAt_bitFirst_iff s a nd od), ?effect⟩
  case effect => rw [← firstBitByte_eq]; rfl

/-- Settles O10: every word is IDLE's own, so only the guards decide. -/
theorem idleOnlyClearsFlags : Obligations.IdleOnlyClearsFlags := by
  unfold Obligations.IdleOnlyClearsFlags
  refine fun s w => ⟨fun a => ?selection, rfl⟩
  case selection =>
    rw [State.decode_eq_iff_of_selectedAt_iff (selectedAt_idle_iff s a w)]
    simp [Instr.encode]

/-! ### The completion of a byte -/

/-- What the four outcomes of a completion ask for alike (rule R134). -/
theorem guardBitLast_of_selectedAt {i : Instr}
    (hmem : i ∈ [Instr.bitLastAddrAck nd od, .bitLastAddrIgnore nd od, .bitLastDataAck nd od, .bitLastDataNack nd od])
    (hsel : i.selectedAt s a = true) :
    i.encode = .pack nd true od false ∧ s.st = .receivingByte ∧ s.bitIndex = 6#3 := by
  simp only [List.mem_cons, List.not_mem_nil, or_false] at hmem
  obtain rfl | rfl | rfl | rfl := hmem
  · obtain ⟨hst, hindex, -⟩ := (selectedAt_addrAck_iff s a nd od).1 hsel
    exact ⟨rfl, hst, hindex⟩
  · obtain ⟨hst, hindex, -⟩ := (selectedAt_addrIgnore_iff s a nd od).1 hsel
    exact ⟨rfl, hst, hindex⟩
  · obtain ⟨hst, hindex, -⟩ := (selectedAt_dataAck_iff s a nd od).1 hsel
    exact ⟨rfl, hst, hindex⟩
  · obtain ⟨hst, hindex, -⟩ := (selectedAt_dataNack_iff s a nd od).1 hsel
    exact ⟨rfl, hst, hindex⟩

theorem State.completion_mem (s : State) (nd od a : Bool) : s.completion nd od a ∈
    [Instr.bitLastAddrAck nd od, .bitLastAddrIgnore nd od, .bitLastDataAck nd od, .bitLastDataNack nd od] := by
  rcases s.completion_cases nd od a with ⟨-, -, h⟩ | ⟨-, -, h⟩ | ⟨-, -, h⟩ | ⟨-, -, h⟩ <;> simp [h]

/-- A completion is selected exactly on a rising edge inside a byte at stored index 6. -/
theorem State.decode_mem_bitLast_iff : s.decode w a ∈
      [Instr.bitLastAddrAck nd od, .bitLastAddrIgnore nd od, .bitLastDataAck nd od, .bitLastDataNack nd od] ↔
    w = .pack nd true od false ∧ s.st = .receivingByte ∧ s.bitIndex = 6#3 := by
  constructor
  · intro hmem
    simpa [State.encode_decode] using guardBitLast_of_selectedAt hmem (s.selectedAt_decode w a)
  · rintro ⟨rfl, hst, hindex⟩
    rw [State.decode_pack_rise hst hindex]
    exact s.completion_mem nd od a

/-- Settles O5: the four meanings begin with the same capture and end with the same flag. -/
theorem bitLastCapturesTheEighthBit : Obligations.BitLastCapturesTheEighthBit := by
  unfold Obligations.BitLastCapturesTheEighthBit
  refine fun s nd od => ⟨fun w a => State.decode_mem_bitLast_iff, fun i hmem => ?effect⟩
  case effect =>
    obtain ⟨t, ht⟩ := exec_is_next i s
    obtain ⟨hacc, hindex⟩ := exec_bitLast_captures hmem ht
    refine ⟨t, ht, fun p hp => by rw [hacc, insertBit_getLsbD _ _ _ _ hp], hindex, ?_⟩
    simp only [List.mem_cons, List.not_mem_nil, or_false] at hmem
    obtain rfl | rfl | rfl | rfl := hmem <;> cases ht <;> exact ⟨rfl, rfl, rfl, nofun⟩

/-- Settles O6: the eighth bit is the direction, and the count goes from 0 to 1. -/
theorem addrAckAcknowledges : Obligations.AddrAckAcknowledges := by
  unfold Obligations.AddrAckAcknowledges
  refine fun s nd od =>
    ⟨fun w a => State.decode_eq_iff_of_selectedAt_iff (selectedAt_addrAck_iff s a nd od), fun h0 => ?effect⟩
  case effect =>
    simp [exec, execBitLastAddrAck, State.emit, State.driveLow, State.countByte, State.setAcked, State.captureLast,
      extractDirection_insertBit_zero, Direction.ofBit, countUp_eq, h0]

/-- Settles O7: as ADDR_ACK, without events, drive and count. -/
theorem addrIgnoreStopsSilently : Obligations.AddrIgnoreStopsSilently := by
  unfold Obligations.AddrIgnoreStopsSilently
  refine fun s nd od =>
    ⟨fun w a => State.decode_eq_iff_of_selectedAt_iff (selectedAt_addrIgnore_iff s a nd od), ?effect⟩
  case effect =>
    simp [exec, execBitLastAddrIgnore, State.setAcked, State.captureLast, extractDirection_insertBit_zero,
      Direction.ofBit]

/-- Settles O8: the byte event is that of the state after the capture; the count saturates. -/
theorem dataAckDeliversAndAcknowledges : Obligations.DataAckDeliversAndAcknowledges := by
  unfold Obligations.DataAckDeliversAndAcknowledges
  refine fun s nd od =>
    ⟨fun w a => State.decode_eq_iff_of_selectedAt_iff (selectedAt_dataAck_iff s a nd od), ?effect⟩
  case effect =>
    rw [← State.byteEvent_captureLast, ← countUp_eq]
    simp only [exec, execBitLastDataAck, State.deliverByte, State.emit, State.driveLow, State.countByte,
      State.setAcked, List.append_assoc]
    rfl

/-- Settles O9: as DATA_ACK, with the notification and the other drive. -/
theorem dataNackDeliversAndAborts : Obligations.DataNackDeliversAndAborts := by
  unfold Obligations.DataNackDeliversAndAborts
  refine fun s nd od =>
    ⟨fun w a => State.decode_eq_iff_of_selectedAt_iff (selectedAt_dataNack_iff s a nd od), ?effect⟩
  case effect =>
    rw [← State.byteEvent_captureLast, ← countUp_eq]
    simp only [exec, execBitLastDataNack, State.deliverByte, State.emit, State.driveHigh, State.countByte,
      State.setAcked, List.append_assoc]
    rfl

end Sys2Proof.Machine
end

section
/-! PROOFS. The decode as a whole (30_encoding.md rule R90, 42_address_ack.md rule R150): the priority list, that it never
breaks a tie, the completion dispatch, and what of a word and a state the decode does not read. -/

namespace Sys2Proof.Machine

variable {s : State} {w : SampleWord} {a : Bool}

/-- Settles O12: a guard that holds decides by itself, so the negations of the guards before it are not even needed. -/
theorem decodeIsThePriorityList : Obligations.DecodeIsThePriorityList := by
  unfold Obligations.DecodeIsThePriorityList
  intro s w a
  have hextract : (insertBit s.acc 0 w.nd).extractLsb' 1 7 = s.acc.extractLsb' 1 7 :=
    extractAddress_insertBit_zero s.acc w.nd
  simp only [SampleWord.startEdge_iff, SampleWord.stopEdge_iff, ← State.guardBitMid_iff, ← State.guardBitLast_iff,
    ← State.guardStart_iff, ← State.guardStop_iff, hextract]
  refine ⟨fun g => State.decode_of_guardStart g a, fun _ g => State.decode_of_guardStop g a, fun _ _ g => ?first,
    fun _ _ _ g => State.decode_of_guardBitMid g a, fun _ _ _ _ g => ?last, fun n1 n2 n3 n4 n5 => ?idle⟩
  case first =>
    exact State.decode_of_guardBitFirst ((s.guardBitFirst_iff w).2 (by simpa [and_assoc] using g)) a
  case last =>
    rw [State.decode_of_guardBitLast g]
    refine ⟨fun ⟨h0, ha⟩ => State.completion_addrAck h0 ha, fun ⟨h0, ha⟩ => State.completion_addrIgnore h0 ha, ?_, ?_⟩
    · rintro ⟨h0, rfl⟩
      exact State.completion_dataAck h0
    · rintro ⟨h0, rfl⟩
      exact State.completion_dataNack h0
  case idle =>
    refine State.decode_of_no_guard ((selectedAt_idle_iff s a w).2 ?_)
    have hfirst : s.guardBitFirst w = false := by
      rw [← Bool.not_eq_true, State.guardBitFirst_iff]
      simpa [and_assoc] using n3
    simp only [Bool.not_eq_true] at n1 n2 n4 n5
    exact ⟨n1, n2, hfirst, n4, n5⟩

theorem State.row_completion (s : State) (nd od a : Bool) : (s.completion nd od a).row.priority = 5 := by
  rcases s.completion_cases nd od a with ⟨-, -, h⟩ | ⟨-, -, h⟩ | ⟨-, -, h⟩ | ⟨-, -, h⟩ <;> rw [h] <;> rfl

/-- Settles O13: a guard that holds fixes the priority of the selected row, which is one number. -/
theorem guardsExcludeOneAnother : Obligations.GuardsExcludeOneAnother := by
  unfold Obligations.GuardsExcludeOneAnother
  intro s w
  have h1 (g : s.guardStart w = true) : (s.decode w true).row.priority = 1 := by
    rw [State.decode_of_guardStart g]; rfl
  have h2 (g : s.guardStop w = true) : (s.decode w true).row.priority = 2 := by
    rw [State.decode_of_guardStop g]; rfl
  have h3 (g : s.guardBitFirst w = true) : (s.decode w true).row.priority = 3 := by
    rw [State.decode_of_guardBitFirst g]; rfl
  have h4 (g : s.guardBitMid w = true) : (s.decode w true).row.priority = 4 := by
    rw [State.decode_of_guardBitMid g]; rfl
  have h5 (g : s.guardBitLast w = true) : (s.decode w true).row.priority = 5 := by
    rw [State.decode_of_guardBitLast g, State.row_completion]
  grind

/-- Settles O18: where a byte completes the decode is the completion, whose outcome is the branch of rule R150. -/
theorem completionDispatch : Obligations.CompletionDispatch := by
  unfold Obligations.CompletionDispatch
  intro s w a hst hrise hindex
  have hextract : (insertBit s.acc 0 w.nd).extractLsb' 1 7 = s.acc.extractLsb' 1 7 :=
    extractAddress_insertBit_zero s.acc w.nd
  rw [State.decode_of_guardBitLast ((s.guardBitLast_iff w).2 ⟨hst, hrise, hindex⟩)]
  simp only [hextract]
  refine ⟨fun h0 => ⟨fun ha => State.completion_addrAck h0 ha, fun ha => State.completion_addrIgnore h0 ha, ?address⟩,
    fun h0 => ⟨?accepted, ?rejected, ?payload⟩⟩
  case address =>
    by_cases ha : s.acc.extractLsb' 1 7 = s.addr
    · rw [State.completion_addrAck h0 ha]
      exact ⟨_, rfl, rfl⟩
    · rw [State.completion_addrIgnore h0 ha]
      exact ⟨_, rfl, rfl⟩
  case accepted =>
    rintro rfl
    exact State.completion_dataAck h0
  case rejected =>
    rintro rfl
    exact State.completion_dataNack h0
  case payload =>
    rw [← State.byteEvent_captureLast]
    cases a with
    | true =>
      rw [State.completion_dataAck h0]
      exact ⟨_, rfl, by simp [newEvents]⟩
    | false =>
      rw [State.completion_dataNack h0]
      exact ⟨_, rfl, by simp [newEvents]⟩

/-! ### The old data level of a clock edge -/

theorem exec_completion_od (s r : State) (nd od od' a : Bool) :
    exec (s.completion nd od a) r = exec (s.completion nd od' a) r := by
  unfold State.completion
  split
  · split <;> rfl
  · split <;> rfl

/-- Clock edges that differ in the old data level do the same. -/
theorem exec_decode_of_clock_edge {w w' : SampleWord} (hnd : w'.nd = w.nd) (hnc : w'.nc = w.nc) (hoc : w'.oc = w.oc)
    (hedge : w.clkFall = true ∨ w.clkRise = true) (s r : State) (a : Bool) :
    exec (s.decode w a) r = exec (s.decode w' a) r := by
  obtain hfall | hrise := hedge
  · have hfall' : w'.clkFall = true := by rwa [SampleWord.clkFall, hoc, hnc]
    rw [State.decode_clkFall hfall, State.decode_clkFall hfall', hnd]
    split <;> rfl
  · have hrise' : w'.clkRise = true := by rwa [SampleWord.clkRise, hoc, hnc]
    rw [State.decode_clkRise hrise, State.decode_clkRise hrise', hnd]
    split
    · rfl
    · split
      · exact exec_completion_od s r _ _ _ a
      · rfl

/-- Settles O21: flipping `od` gives a word with the other three levels. -/
theorem oldDataLevelIsIgnored : Obligations.OldDataLevelIsIgnored := by
  unfold Obligations.OldDataLevelIsIgnored
  exact fun s w a hedge => exec_decode_of_clock_edge (by simp) (by simp) (by simp) hedge s s a

/-! ### The error classes -/

/-- An address byte of another device completes. -/
theorem State.decode_addrIgnore_iff : (∃ nd od, s.decode w a = .bitLastAddrIgnore nd od) ↔
    s.guardBitLast w = true ∧ s.byteCount = 0#8 ∧ s.acc.extractLsb' 1 7 ≠ s.addr := by
  constructor
  · rintro ⟨nd, od, hop⟩
    obtain ⟨rfl, hst, hindex, h0, hother⟩ :=
      (State.decode_eq_iff_of_selectedAt_iff (selectedAt_addrIgnore_iff s a nd od)).1 hop
    exact ⟨(s.guardBitLast_iff _).2 ⟨hst, SampleWord.clkRise_pack nd od, hindex⟩, h0, hother⟩
  · rintro ⟨hlast, h0, hother⟩
    exact ⟨_, _, (State.decode_of_guardBitLast hlast a).trans (State.completion_addrIgnore h0 hother)⟩

/-- A payload byte completes and is rejected. -/
theorem State.decode_dataNack_iff : (∃ nd od, s.decode w a = .bitLastDataNack nd od) ↔
    s.guardBitLast w = true ∧ s.byteCount ≠ 0#8 ∧ a = false := by
  constructor
  · rintro ⟨nd, od, hop⟩
    obtain ⟨rfl, hst, hindex, h0, ha⟩ :=
      (State.decode_eq_iff_of_selectedAt_iff (selectedAt_dataNack_iff s a nd od)).1 hop
    exact ⟨(s.guardBitLast_iff _).2 ⟨hst, SampleWord.clkRise_pack nd od, hindex⟩, h0, ha⟩
  · rintro ⟨hlast, h0, rfl⟩
    exact ⟨_, _, (State.decode_of_guardBitLast hlast false).trans (State.completion_dataNack h0)⟩

theorem errorClass_eq_mismatch_iff (i : Instr) :
    errorClass i = some .mismatch ↔ ∃ nd od, i = .bitLastAddrIgnore nd od := by
  cases i <;> simp [errorClass]

theorem errorClass_eq_reject_iff (i : Instr) :
    errorClass i = some .reject ↔ ∃ nd od, i = .bitLastDataNack nd od := by
  cases i <;> simp [errorClass]

theorem errorClass_eq_malformed_iff (i : Instr) :
    errorClass i = some .malformed ↔ ∃ w : SampleWord, (w.startEdge = true ∨ w.stopEdge = true) ∧ i = .idle w := by
  cases i <;> simp [errorClass, or_iff_not_imp_left]

/-- Settles O38: each class is a class of operations, and each of these is selected as the statement says. -/
theorem errorClassesOfTicks : Obligations.ErrorClassesOfTicks := by
  unfold Obligations.ErrorClassesOfTicks
  intro s w a hs
  rw [errorClass_eq_mismatch_iff, errorClass_eq_reject_iff, errorClass_eq_malformed_iff,
    ← State.idle_on_condition_iff hs w a]
  refine ⟨State.decode_addrIgnore_iff, State.decode_dataNack_iff, ?malformed⟩
  constructor
  · rintro ⟨v, hedge, hidle⟩
    obtain rfl : w = v := ((s.decode_eq_iff w a _).1 hidle).left
    exact ⟨hedge, hidle⟩
  · exact fun h => ⟨w, h⟩

end Sys2Proof.Machine
end

section
/-! PROOFS. The events of a tick, the ports they show at, and the latch (20_memory.md rule R65, 10_state.md rules R27 and
R32 e, 30_encoding.md rule R97, 60_exceptions.md rules R202, R203). All of it is read off `State.eventsOf`. -/

namespace Sys2Proof.Machine

variable {s t : State}

/-! ### The byte handed to the provider: which event it is -/

theorem State.byteEvent_notifyPort (s : State) : s.byteEvent.notifyPort = none := by
  cases hdir : s.dir <;> simp [State.byteEvent, hdir]

theorem State.byteEvent_bytePort (s : State) : s.byteEvent.bytePort = some (s.dir.toBit, s.acc) := by
  cases hdir : s.dir <;> simp [State.byteEvent, hdir, Direction.toBit]

theorem State.notify_ne_byteEvent (s : State) (k : NotifyKind) : .notify k ≠ s.byteEvent := by
  cases hdir : s.dir <;> simp [State.byteEvent, hdir]

theorem State.drive_ne_byteEvent (s : State) (l : Level) : .drive l ≠ s.byteEvent := by
  cases hdir : s.dir <;> simp [State.byteEvent, hdir]

/-- Settles O31: the list is `State.eventsOf`, with the entry point of the direction written out. -/
theorem eventsOfEachOperation : Obligations.EventsOfEachOperation := by
  unfold Obligations.EventsOfEachOperation
  intro s t h
  rw [events_of_step h]
  cases s.nextInstr with
  | bitLastDataAck nd od => rw [State.eventsOf, State.byteEvent_captureLast]
  | bitLastDataNack nd od => rw [State.eventsOf, State.byteEvent_captureLast]
  | _ => rfl

/-! ### At most one event of each kind -/

theorem State.eventsOf_notifyPorts_length (s : State) (i : Instr) :
    ((s.eventsOf i).filterMap Event.notifyPort).length ≤ 1 := by
  cases i <;> simp [State.eventsOf, List.filterMap_cons, State.byteEvent_notifyPort, -State.byteEvent_captureLast]

theorem State.eventsOf_bytePorts_length (s : State) (i : Instr) :
    ((s.eventsOf i).filterMap Event.bytePort).length ≤ 1 := by
  cases i <;> simp [State.eventsOf, List.filterMap_cons, State.byteEvent_bytePort, -State.byteEvent_captureLast]

theorem State.eventsOf_drivePorts_length (s : State) (i : Instr) :
    ((s.eventsOf i).filterMap Event.drivePort).length ≤ 1 := by
  cases i <;> simp [State.eventsOf, List.filterMap_cons, State.byteEvent_drivePort, -State.byteEvent_captureLast]

/-- A step that drives the line completes a byte. -/
theorem guardBitLast_of_drive (h : step s = .next t) (hdrive : (newEvents s t).filterMap Event.drivePort ≠ []) :
    s.guardBitLast s.currentWord = true := by
  rw [newEvents_of_step h] at hdrive
  cases step_cases h with
  | start _ op _ => rw [op] at hdrive; exact absurd rfl hdrive
  | stop _ op _ => rw [op] at hdrive; exact absurd rfl hdrive
  | bitFirst _ _ _ _ op _ => rw [op] at hdrive; exact absurd rfl hdrive
  | bitMid _ _ _ _ op _ => rw [op] at hdrive; exact absurd rfl hdrive
  | addrAck _ _ guard _ _ _ _ _ => exact guard
  | addrIgnore _ _ guard _ _ _ _ _ => exact guard
  | dataAck _ _ guard _ _ _ _ _ => exact guard
  | dataNack _ _ guard _ _ _ _ _ => exact guard
  | idle _ _ _ _ _ op _ => rw [op] at hdrive; exact absurd rfl hdrive

/-- Settles O32: no operation's list has two events of a kind. -/
theorem atMostOneEventOfEachKind : Obligations.AtMostOneEventOfEachKind := by
  unfold Obligations.AtMostOneEventOfEachKind
  intro s t h
  have hdrive := guardBitLast_of_drive h
  rw [newEvents_of_step h] at hdrive ⊢
  exact ⟨s.eventsOf_notifyPorts_length _, s.eventsOf_bytePorts_length _, s.eventsOf_drivePorts_length _, hdrive⟩

/-- Settles O33: the notifications in each operation's list; a delivered byte is none. -/
theorem notificationsExactly : Obligations.NotificationsExactly := by
  unfold Obligations.NotificationsExactly
  intro s t h
  rw [newEvents_of_step h]
  cases s.nextInstr <;> simp [State.eventsOf, State.notify_ne_byteEvent, -State.byteEvent_captureLast]

theorem Direction.toBit_eq_beq (d : Direction) : d.toBit = (d == .read) := by
  cases d <;> rfl

/-- A completed payload byte goes to the entry point of the direction, whatever the answer. -/
theorem State.completion_bytePorts (h0 : s.byteCount ≠ 0#8) (nd od a : Bool) :
    (s.eventsOf (s.completion nd od a)).filterMap Event.bytePort = [(s.dir.toBit, insertBit s.acc 0 nd)] := by
  cases a with
  | true => rw [State.completion_dataAck h0, State.eventsOf, List.filterMap_cons_some (State.byteEvent_bytePort _)]; rfl
  | false => rw [State.completion_dataNack h0, State.eventsOf, List.filterMap_cons_some (State.byteEvent_bytePort _)]; rfl

/-- Settles O34: among the events only DATA_ACK and DATA_NACK hand over a byte, and where a payload byte completes one of
these two is selected. -/
theorem payloadBytesDeliveredOnce : Obligations.PayloadBytesDeliveredOnce := by
  unfold Obligations.PayloadBytesDeliveredOnce
  intro s t h
  rw [newEvents_of_step h]
  split
  case isTrue hcond =>
    obtain ⟨hlast, h0⟩ := hcond
    have hop : s.nextInstr = s.completion s.currentWord.nd s.currentWord.od s.accept :=
      State.decode_of_guardBitLast hlast _
    rw [hop, State.completion_bytePorts h0, Direction.toBit_eq_beq]
  case isFalse hcond =>
    cases step_cases h with
    | start _ op _ => rw [op]; rfl
    | stop _ op _ => rw [op]; rfl
    | bitFirst _ _ _ _ op _ => rw [op]; rfl
    | bitMid _ _ _ _ op _ => rw [op]; rfl
    | addrAck _ _ _ _ _ _ op _ => rw [op]; rfl
    | addrIgnore _ _ _ _ _ _ op _ => rw [op]; rfl
    | dataAck _ _ guard _ later _ _ _ => exact absurd ⟨guard, later⟩ hcond
    | dataNack _ _ guard _ later _ _ _ => exact absurd ⟨guard, later⟩ hcond
    | idle _ _ _ _ _ op _ => rw [op]; rfl

/-- Settles O36: the events of the operation, each at its port, and the latch after it. -/
theorem portsOfEveryTick : Obligations.PortsOfEveryTick := by
  unfold Obligations.PortsOfEveryTick
  intro s t h
  rw [portsOfTick, newEvents_of_step h]
  cases step_cases h with
  | start _ op eq => rw [op, eq]; rfl
  | stop _ op eq => rw [op, eq]; rfl
  | bitFirst _ _ _ _ op eq => rw [op, eq]; rfl
  | bitMid _ _ _ _ op eq => rw [op, eq]; rfl
  | addrAck _ _ _ _ _ _ op eq => rw [op, eq]; rfl
  | addrIgnore _ _ _ _ _ _ op eq => rw [op, eq]; rfl
  | dataAck nd _ _ _ _ _ op eq =>
    rw [op, eq]
    simp [State.eventsOf, List.findSome?_cons, State.byteEvent_notifyPort, State.byteEvent_bytePort,
      State.byteEvent_drivePort, Level.code, -State.byteEvent_captureLast]
  | dataNack nd _ _ _ _ _ op eq =>
    rw [op, eq]
    simp [State.eventsOf, List.findSome?_cons, State.byteEvent_notifyPort, State.byteEvent_bytePort,
      State.byteEvent_drivePort, NotifyKind.code, Level.code, -State.byteEvent_captureLast]
  | idle _ _ _ _ _ op eq => rw [op, eq]; rfl

/-! ### The latch -/

/-- Settles O37: each drive sets the latch as it says; and neither the decode nor a meaning reads the latch. -/
theorem latchFollowsTheTicksDrive : Obligations.LatchFollowsTheTicksDrive := by
  unfold Obligations.LatchFollowsTheTicksDrive
  refine ⟨fun s t h => ?latch, fun s t p h => ?unread⟩
  case latch =>
    rw [newEvents_of_step h]
    cases step_cases h with
    | start _ op eq => rw [op, eq]; rfl
    | stop _ op eq => rw [op, eq]; rfl
    | bitFirst _ _ _ _ op eq => rw [op, eq]; rfl
    | bitMid _ _ _ _ op eq => rw [op, eq]; rfl
    | addrAck _ _ _ _ _ _ op eq => rw [op, eq]; rfl
    | addrIgnore _ _ _ _ _ _ op eq => rw [op, eq]; rfl
    | dataAck nd _ _ _ _ _ op eq => rw [op, eq, if_pos (by simp [State.eventsOf])]
    | dataNack nd _ _ _ _ _ op eq =>
      rw [op, eq, if_neg (by simp [State.eventsOf, State.drive_ne_byteEvent, -State.byteEvent_captureLast]),
        if_pos (by simp [State.eventsOf])]
    | idle _ _ _ _ _ op eq => rw [op, eq]; rfl
  case unread =>
    obtain ⟨hstuck, hexec⟩ := (step_next_iff s t).1 h
    rw [newEvents_of_step h]
    refine (step_next_iff _ _).2 ⟨hstuck, ?_⟩
    change exec s.nextInstr { s.takeTick with sdaPull := p } = _
    cases hop : s.nextInstr with
    | bitLastDataAck nd od =>
      rw [State.eventsOf, List.filterMap_cons_none (State.byteEvent_drivePort _)]
      rw [hop] at hexec
      cases hexec
      rfl
    | bitLastDataNack nd od =>
      rw [State.eventsOf, List.filterMap_cons_none (State.byteEvent_drivePort _)]
      rw [hop] at hexec
      cases hexec
      rfl
    | _ =>
      rw [hop] at hexec
      cases hexec
      rfl

end Sys2Proof.Machine
end

section
/-! PROOFS. One step (00_scope.md rule R11, 10_state.md rules R20, R25, R30, 30_encoding.md rule R82): when it goes on, what
it runs, what each operation leaves unchanged, and how the sequencing state and the byte count move. -/

namespace Sys2Proof.Machine

variable {s t : State}

/-! ### What a step runs, and when it stops -/

theorem callIsStuck_of_no_call (h : callsProvider s.nextInstr = false) : s.callIsStuck = false := by
  simp [State.callIsStuck, h]

/-- Settles O25: a call that returns and an operation without a call are the two ways not to be stuck. -/
theorem stepRunsTheSelectedOperation : Obligations.StepRunsTheSelectedOperation := by
  unfold Obligations.StepRunsTheSelectedOperation
  refine fun s => ⟨fun hret => step_of_not_stuck (callIsStuck_of_returns hret),
    fun hcall => step_of_not_stuck (callIsStuck_of_no_call hcall), rfl, fun t ts hticks hsource => ?word,
    fun t ts b hticks hanswer => State.accept_answered (by rw [State.currentTick_cons hticks, hanswer])⟩
  case word =>
    exact ⟨by rw [State.currentWord_external hsource, State.currentTick_cons hticks],
      State.takeTick_prev_external hsource⟩

theorem step_of_returns (hret : s.currentTick.returns = true) : ∃ t, step s = .next t := by
  rw [step_of_not_stuck (callIsStuck_of_returns hret)]
  exact exec_is_next _ _

/-- A step that does not go on ran into a provider call that does not return. -/
theorem callIsStuck_of_not_next (h : ∀ t, step s ≠ .next t) : s.callIsStuck = true := by
  by_contra hstuck
  obtain ⟨t, ht⟩ := exec_is_next s.nextInstr s.takeTick
  exact h t ((step_of_not_stuck (Bool.not_eq_true _ ▸ hstuck)).trans ht)

/-- Only the completion of a payload byte reads the provider's answer. -/
theorem State.decode_reads_accept {w : SampleWord} (h : s.decode w true ≠ s.decode w false) :
    s.guardBitLast w = true ∧ s.byteCount ≠ 0#8 := by
  by_cases hlast : s.guardBitLast w = true
  · refine ⟨hlast, fun h0 => h ?_⟩
    rw [State.decode_of_guardBitLast hlast, State.decode_of_guardBitLast hlast]
    simp [State.completion, h0]
  · exact absurd (by simp [State.decode, hlast]) h

/-- Settles O26: `exec` always goes on, so the stuck call is the one way to stop. -/
theorem stepIsTotalAndReadsAcceptOnlyForPayload : Obligations.StepIsTotalAndReadsAcceptOnlyForPayload := by
  unfold Obligations.StepIsTotalAndReadsAcceptOnlyForPayload
  refine ⟨fun s => step_of_returns, fun s f hfault => ?fault, fun s hcall hret => ?stuck, fun s r hrefused => ?refused,
    fun s w hne => ?accept, fun s t h => ?drive⟩
  case fault =>
    have hstuck : s.callIsStuck = true := callIsStuck_of_not_next fun t ht => by simp [hfault] at ht
    rw [step_fault_of_stuck hstuck] at hfault
    simp only [State.callIsStuck, Bool.and_eq_true, Bool.not_eq_true'] at hstuck
    obtain ⟨hcall, hret⟩ := hstuck
    exact ⟨(Host.Outcome.fault.inj hfault).symm, hret, hcall⟩
  case stuck => exact step_fault_of_stuck (by simp [State.callIsStuck, hcall, hret])
  case refused =>
    have hstuck : s.callIsStuck = true := callIsStuck_of_not_next fun t ht => by simp [hrefused] at ht
    simp [step_fault_of_stuck hstuck] at hrefused
  case accept =>
    obtain ⟨hlast, h0⟩ := State.decode_reads_accept hne
    exact ⟨(State.decode_of_guardBitLast hlast true).trans (State.completion_dataAck h0),
      (State.decode_of_guardBitLast hlast false).trans (State.completion_dataNack h0), h0⟩
  case drive =>
    rw [newEvents_of_step h]
    exact s.eventsOf_drivePorts_length _

/-! ### The frame -/

theorem exec_keeps_environment {i : Instr} (h : exec i s = .next t) :
    t.addr = s.addr ∧ t.sampleSource = s.sampleSource ∧ t.prevData = s.prevData ∧ t.prevClock = s.prevClock ∧
      t.ticks = s.ticks ∧ t.tickNo = s.tickNo := by
  cases i <;> cases h <;> exact ⟨rfl, rfl, rfl, rfl, rfl, rfl⟩

/-- Settles O29: the meanings are chains of named updates, each of which leaves the listed fields as they are. -/
theorem onlyListedOperationsWrite : Obligations.OnlyListedOperationsWrite := by
  unfold Obligations.OnlyListedOperationsWrite
  refine fun i s t h => ⟨exec_keeps_environment h, ?_⟩
  cases i <;> cases h <;> simp

/-- Settles O30: under `InternalRegs` the tick loads the registers, and no operation touches them afterwards. -/
theorem internalFrontEnd : Obligations.InternalFrontEnd := by
  unfold Obligations.InternalFrontEnd
  refine ⟨fun s hsource => ?_, fun s t hsource h => ?_, fun a => ⟨rfl, rfl⟩⟩
  · have hword := State.currentWord_internalRegs hsource
    obtain ⟨hdata, hclock⟩ := State.takeTick_prev_internalRegs hsource
    exact ⟨hword, by rw [hdata, hword, SampleWord.pack_nd], by rw [hclock, hword, SampleWord.pack_nc]⟩
  · obtain ⟨-, hexec⟩ := (step_next_iff s t).1 h
    obtain ⟨-, hsource', hdata', hclock', -⟩ := exec_keeps_environment hexec
    obtain ⟨hdata, hclock⟩ := State.takeTick_prev_internalRegs hsource
    rw [State.currentWord_internalRegs (hsource'.trans hsource), SampleWord.pack_od, SampleWord.pack_oc, hdata',
      hclock', hdata, hclock]
    exact ⟨rfl, rfl⟩

/-! ### The sequencing state and the byte count -/

/-- Settles O28: each row from its case of the step, the state before from the guard. -/
theorem sequencingTable : Obligations.SequencingTable := by
  unfold Obligations.SequencingTable
  intro s t h
  have receiving (guard : s.guardBitLast s.currentWord = true) : s.st = .receivingByte :=
    ((s.guardBitLast_iff _).1 guard).left
  cases step_cases h with
  | start _ op eq => rw [op, eq]; exact ⟨rfl, rfl⟩
  | stop guard op eq => rw [op, eq]; exact ⟨((s.guardStop_iff _).1 guard).right, rfl, rfl⟩
  | bitFirst _ _ guard _ op eq => rw [op, eq]; exact ⟨((s.guardBitFirst_iff _).1 guard).left, rfl, rfl⟩
  | bitMid _ _ guard _ op eq =>
    obtain ⟨hst, -, hindex⟩ := (s.guardBitMid_iff _).1 guard
    rw [op, eq]
    exact ⟨hst, hst, by simp only; bv_omega, by simp only; bv_omega⟩
  | addrAck _ _ guard _ _ _ op eq => rw [op, eq]; exact ⟨receiving guard, rfl, rfl⟩
  | addrIgnore _ _ guard _ _ _ op eq => rw [op, eq]; exact ⟨receiving guard, rfl, rfl⟩
  | dataAck _ _ guard _ _ _ op eq => rw [op, eq]; exact ⟨receiving guard, rfl, rfl⟩
  | dataNack _ _ guard _ _ _ op eq => rw [op, eq]; exact ⟨receiving guard, rfl, rfl⟩
  | idle _ _ _ _ _ op eq => rw [op, eq]; exact ⟨rfl, rfl⟩

/-- A step counts a byte where one completes; START alone clears the count. -/
theorem byteCount_of_step (h : step s = .next t) (hop : s.nextInstr ≠ .start) :
    t.byteCount = s.byteCount ∨ (s.guardBitLast s.currentWord = true ∧ t.byteCount = countUp s.byteCount) := by
  cases step_cases h with
  | start _ op _ => exact absurd op hop
  | stop _ _ eq => subst eq; exact .inl rfl
  | bitFirst _ _ _ _ _ eq => subst eq; exact .inl rfl
  | bitMid _ _ _ _ _ eq => subst eq; exact .inl rfl
  | addrAck _ _ guard _ _ _ _ eq => subst eq; exact .inr ⟨guard, rfl⟩
  | addrIgnore _ _ _ _ _ _ _ eq => subst eq; exact .inl rfl
  | dataAck _ _ guard _ _ _ _ eq => subst eq; exact .inr ⟨guard, rfl⟩
  | dataNack _ _ guard _ _ _ _ eq => subst eq; exact .inr ⟨guard, rfl⟩
  | idle _ _ _ _ _ _ eq => subst eq; exact .inl rfl

/-- Settles O48: where the count moves it is `countUp`, which saturates. -/
theorem countMovesOnlyOnCompletion : Obligations.CountMovesOnlyOnCompletion := by
  unfold Obligations.CountMovesOnlyOnCompletion
  intro s t h hop
  obtain hsame | ⟨hlast, hcount⟩ := byteCount_of_step h hop
  · rw [hsame]
    exact ⟨fun hne => absurd rfl hne, BitVec.le_refl _, Nat.le_succ _⟩
  · rw [hcount]
    exact ⟨fun _ => hlast, le_countUp _, countUp_toNat_le _⟩

end Sys2Proof.Machine
end

section
/-! PROOFS. Words: the edge detector (30_encoding.md rule R81), nine words of the spec, and the model's own way to place a
word where the next step takes it (log 14, log 15). -/

namespace Sys2Proof

/-- Settles O11: there are sixteen words. -/
theorem edgeDetectorClassifiesWords : Obligations.EdgeDetectorClassifiesWords := by
  unfold Obligations.EdgeDetectorClassifiesWords
  decide

/-- Settles O17: nine computations. -/
theorem specWordsDecode : Obligations.SpecWordsDecode := by
  unfold Obligations.SpecWordsDecode
  decide

@[simp] theorem SampleWord.pack_fields (w : SampleWord) : SampleWord.pack w.nd w.nc w.od w.oc = w := by
  revert w
  decide

/-- No bit of a word is lost when it is read without a state. -/
theorem encode_decodePattern (w : SampleWord) : (decodePattern w).encode = w := by
  revert w
  decide

/-- What a word can stand for without a state; IDLE only where it has no edge. -/
theorem decodePattern_cases (w : SampleWord) :
    decodePattern w = .start ∨ decodePattern w = .stop ∨ decodePattern w = .bitFirst w.nd w.od ∨
    decodePattern w = .bitMid w.nd w.od ∨
    (decodePattern w = .idle w ∧
      w.startEdge = false ∧ w.stopEdge = false ∧ w.clkFall = false ∧ w.clkRise = false) := by
  revert w
  decide

/-- A word numbered as the opcode table numbers it stands in the low four bits. -/
theorem eq_ofNat_of_tableWord {nbits w : Nat} {word : SampleWord} (h : tableWord nbits w = some word) :
    word = BitVec.ofNat 4 w := by
  unfold tableWord tableBytes at h
  cases hn : (nbits + 7) / 8 with
  | zero => simp [hn, decodeBytes, Except.toOption] at h
  | succ n =>
    rw [hn, List.range_succ_eq_map] at h
    simp only [List.map_cons, decodeBytes, Except.toOption, Option.some.injEq] at h
    rw [← h]
    exact BitVec.eq_of_toNat_eq (by simp)

namespace Machine

variable {s : State}

theorem State.presentWord_currentWord (s : State) (w : SampleWord) : (s.presentWord w).currentWord = w := by
  cases hsource : s.sampleSource <;> simp [State.presentWord, State.currentWord, State.currentTick, hsource]

theorem State.presentWord_ticks (s : State) (w : SampleWord) :
    (s.presentWord w).ticks = { word := w, answer := none, returns := true } :: s.ticks := by
  cases hsource : s.sampleSource <;> simp [State.presentWord, hsource]

/-- Making a state ready sets sequencing state only: the tick about to run is the same. -/
theorem State.readyFor_tick (s : State) (i : Instr) :
    (s.readyFor i).ticks = s.ticks ∧ (s.readyFor i).currentTick = s.currentTick ∧
      (s.readyFor i).currentWord = s.currentWord ∧ (s.readyFor i).accept = s.accept := by
  unfold State.readyFor
  split
  · exact ⟨rfl, rfl, rfl, rfl⟩
  · cases i <;> exact ⟨rfl, rfl, rfl, rfl⟩

/-- What a word stands for without a state is selected where the state is ready for it. -/
theorem State.readyFor_selectedAt (s : State) (w : SampleWord) :
    (decodePattern w).selectedAt (s.readyFor (decodePattern w)) s.accept = true := by
  unfold State.readyFor
  split
  case isTrue hsel => exact hsel
  case isFalse hnot =>
    rcases decodePattern_cases w with h | h | h | h | ⟨h, hedge⟩ <;> rw [h] at hnot ⊢
    · refine (selectedAt_start_iff _ _).2 ?_
      cases hst : s.st <;> simp
    · exact (selectedAt_stop_iff _ _).2 (.inl rfl)
    · exact (selectedAt_bitFirst_iff _ _ _ _).2 ⟨rfl, rfl, rfl, rfl⟩
    · exact (selectedAt_bitMid_iff _ _ _ _).2 ⟨rfl, by simp⟩
    · exact absurd ((State.decode_eq_iff _ _ _ _).1 (State.decode_of_no_edge hedge _)).right hnot

theorem State.readyFor_nextInstr {w : SampleWord} (hword : s.currentWord = w) :
    (s.readyFor (decodePattern w)).nextInstr = decodePattern w := by
  obtain ⟨-, -, hkept, haccept⟩ := s.readyFor_tick (decodePattern w)
  refine (State.decode_eq_iff _ _ _ _).2 ⟨?_, haccept ▸ s.readyFor_selectedAt w⟩
  rw [hkept, hword, encode_decodePattern]

/-- Settles O27: the presented tick has the word and a call that returns, and the state is ready for its row. -/
theorem fetchWordRunsItsRow : Obligations.FetchWordRunsItsRow := by
  unfold Obligations.FetchWordRunsItsRow
  intro s nbits w i h
  obtain ⟨word, htable, rfl⟩ := Option.map_eq_some_iff.1 h
  have hfetch : s.withFetchWord nbits w = (s.presentWord word).readyFor (decodePattern word) := by
    simp only [State.withFetchWord, htable, State.withSampleWord]
  have hword := s.presentWord_currentWord word
  have hop := State.readyFor_nextInstr hword
  obtain ⟨hticks, htick, hkept, -⟩ := (s.presentWord word).readyFor_tick (decodePattern word)
  have hret : (s.presentWord word).currentTick.returns = true := by
    rw [State.currentTick_cons (s.presentWord_ticks word)]
  rw [hfetch]
  refine ⟨?_, ?_, ?_⟩
  · rw [step_of_not_stuck (callIsStuck_of_returns (htick ▸ hret)), hop]
  · rw [hkept, hword, eq_ofNat_of_tableWord htable]
  · rw [State.takeTick_ticks, hticks, State.presentWord_ticks, List.tail_cons]

end Machine

end Sys2Proof
end

section
/-! PROOFS. Reset and construction (10_state.md rule R34, 60_exceptions.md rule R191). -/

namespace Sys2Proof.Machine

/-- Settles O22: the reset values stand in the definition. -/
theorem resetStateValues : Obligations.ResetStateValues := by
  unfold Obligations.ResetStateValues
  exact ⟨fun _ _ => rfl, rfl, fun _ => rfl⟩

theorem construct_of_wellFormed {p : Provider} {a : Nat} (h : p.wellFormed = true) (ha : p.address = some a) :
    construct p = .next (State.fresh (BitVec.ofNat 7 a) .external) := by
  simp only [construct, h, ha]
  rfl

theorem construct_of_not_wellFormed {p : Provider} (h : p.wellFormed = false) :
    construct p = .fault (.configurationError p.problems) := by
  simp [construct, h]

/-- A provider is complete exactly where it has an address of 7 bits and the three entry points. -/
theorem Provider.wellFormed_iff (p : Provider) : p.wellFormed = true ↔
    (∃ a, p.address = some a ∧ a < 128) ∧ p.hasNotify = true ∧ p.hasWriteByte = true ∧ p.hasReadByte = true := by
  cases ha : p.address <;> simp [Provider.wellFormed, Provider.problems, Provider.addressProblems, ha]

/-- Settles O23: whatever is missing, the provider is not well formed, and then its problems are some. -/
theorem constructionNeedsAFullProvider : Obligations.ConstructionNeedsAFullProvider := by
  unfold Obligations.ConstructionNeedsAFullProvider
  refine fun p => ⟨fun a ha hlt h1 h2 h3 => ?full, fun hmissing => ?refused⟩
  case full => exact construct_of_wellFormed (p.wellFormed_iff.2 ⟨⟨a, ha, hlt⟩, h1, h2, h3⟩) ha
  case refused =>
    have hbad : p.wellFormed = false := by
      rw [← Bool.not_eq_true, Provider.wellFormed_iff]
      rintro ⟨⟨a, ha, hlt⟩, h1, h2, h3⟩
      obtain hnone | h | h | h | ⟨b, hb, hwide⟩ := hmissing
      · simp [ha] at hnone
      · simp [h1] at h
      · simp [h2] at h
      · simp [h3] at h
      · have hab : a = b := Option.some.inj (ha.symm.trans hb)
        omega
    exact ⟨p.problems, by simpa [Provider.wellFormed] using hbad, construct_of_not_wellFormed hbad⟩

end Sys2Proof.Machine
end

section
/-! PROOFS. Rules about one tick and the ticks after it (40_conditions.md rules R111, R114, 41_byte_assembly.md rule R131,
43_idle.md rule R182, 20_memory.md rule R58, 60_exceptions.md rules R192, R197). They turn on one fact: a flag that is set
hides the next tick, which runs IDLE and clears it. -/

namespace Sys2Proof

/-- A word in which neither level changed has none of the four edges. -/
theorem SampleWord.no_edge_of_unchanged {w : SampleWord} (hdata : w.nd = w.od) (hclock : w.nc = w.oc) :
    w.startEdge = false ∧ w.stopEdge = false ∧ w.clkFall = false ∧ w.clkRise = false := by
  simp [SampleWord.startEdge, SampleWord.stopEdge, SampleWord.clkFall, SampleWord.clkRise, hdata, hclock]

namespace Machine

variable {s t : State} {w : SampleWord}

/-! ### What a tick does, by the operation it selects -/

theorem step_of_idle (hop : s.nextInstr = .idle w) : step s = .next s.takeTick.clearFlags := by
  rw [step_of_not_stuck (callIsStuck_of_idle hop), hop]
  rfl

theorem step_of_start (hop : s.nextInstr = .start) (hret : s.currentTick.returns = true) :
    step s = .next { s.takeTick with
      byteCount := 0, acc := 0, bitIndex := 0, st := .started, jStarted := true
      events := s.events ++ [.notify .started] } := by
  rw [step_of_not_stuck (callIsStuck_of_returns hret), hop]
  rfl

theorem eq_clearFlags_of_idle (hop : s.nextInstr = .idle w) (h : step s = .next t) : t = s.takeTick.clearFlags :=
  (Host.Outcome.next.inj ((step_of_idle hop).symm.trans h)).symm

theorem stopped_of_stop (hop : s.nextInstr = .stop) (h : step s = .next t) : t.st = .stopped ∧ t.jStopped = true := by
  obtain ⟨-, hexec⟩ := (step_next_iff s t).1 h
  rw [hop] at hexec
  cases hexec
  exact ⟨rfl, rfl⟩

/-- START and the two acknowledges lead to Started and leave a flag set. -/
theorem started_of_start_or_acknowledge (h : step s = .next t)
    (hop : s.nextInstr = .start ∨ (∃ nd od, s.nextInstr = .bitLastAddrAck nd od) ∨
      ∃ nd od, s.nextInstr = .bitLastDataAck nd od) : t.st = .started ∧ t.anyFlag = true := by
  obtain ⟨-, hexec⟩ := (step_next_iff s t).1 h
  obtain hop | ⟨nd, od, hop⟩ | ⟨nd, od, hop⟩ := hop <;> rw [hop] at hexec <;> cases hexec
  · exact ⟨rfl, by simp [State.anyFlag]⟩
  · exact ⟨rfl, by simp [State.anyFlag]⟩
  · exact ⟨rfl, by simp [State.anyFlag]⟩

theorem State.clearFlags_anyFlag (s : State) : s.clearFlags.anyFlag = false := rfl

/-! ### START on its pattern -/

/-- Settles O39: the pattern passes the guard of START but where `jStopped` hides it, where the tick runs IDLE. -/
theorem startAsTheTestsStateIt : Obligations.StartAsTheTestsStateIt := by
  unfold Obligations.StartAsTheTestsStateIt
  intro s hedge hret
  have hword := (SampleWord.startEdge_iff _).1 hedge
  refine ⟨fun hst hflag => ?recognised, fun hst hflag => ?hidden, fun hst => ?restart⟩
  case recognised =>
    have hguard := (s.guardStart_iff _).2 ⟨hword, .inl ⟨hst, hflag⟩⟩
    exact ⟨_, step_of_start (State.decode_of_guardStart hguard _) hret, rfl, rfl⟩
  case hidden =>
    have hop : s.nextInstr = .idle 0x7 := by
      rw [State.nextInstr, hword]
      exact State.decode_start_pattern_hidden hst hflag _
    exact ⟨_, step_of_idle hop, rfl, rfl⟩
  case restart =>
    have hguard := (s.guardStart_iff _).2 ⟨hword, .inr hst⟩
    exact ⟨_, step_of_start (State.decode_of_guardStart hguard _) hret, rfl, rfl, rfl⟩

/-! ### The tick after a condition or an acknowledge -/

/-- Right after a STOP every word is hidden. -/
theorem State.decode_after_stop (hst : s.st = .stopped) (hflag : s.jStopped = true) (w : SampleWord) (a : Bool) :
    s.decode w a = .idle w := by
  simp [State.decode_stopped hst, hflag]

/-- Settles O41: the tick after STOP is hidden and clears the flag, and then START passes its guard. -/
theorem startRightAfterStopIsLost : Obligations.StartRightAfterStopIsLost := by
  unfold Obligations.StartRightAfterStopIsLost
  intro s t hop h
  obtain ⟨hst, hflag⟩ := stopped_of_stop hop h
  have hidle : t.nextInstr = .idle t.currentWord := State.decode_after_stop hst hflag _ _
  exact ⟨hidle, t.takeTick.clearFlags, step_of_idle hidle, hst, rfl, rfl, State.nextInstr_start_of_stopped hst rfl⟩

/-- In Started with a flag set, a word that is no condition is hidden. -/
theorem State.decode_started_of_flag (hst : s.st = .started) (hflag : s.anyFlag = true)
    (hstart : w.startEdge = false) (hstop : w.stopEdge = false) (a : Bool) : s.decode w a = .idle w := by
  rw [← Bool.not_eq_true, SampleWord.startEdge_iff] at hstart
  rw [← Bool.not_eq_true, SampleWord.stopEdge_iff] at hstop
  rw [State.decode_started hst, if_neg fun hcond => hstart hcond.left, if_neg hstop, if_neg (by simp [hflag])]

/-- Settles O42: the flag just set hides the edge, and the tick that it hides clears it. -/
theorem fallingEdgeRightAfterConditionIsLost : Obligations.FallingEdgeRightAfterConditionIsLost := by
  unfold Obligations.FallingEdgeRightAfterConditionIsLost
  intro s t h hop hstart hstop
  obtain ⟨hst, hflag⟩ := started_of_start_or_acknowledge h hop
  have hidle : t.nextInstr = .idle t.currentWord := State.decode_started_of_flag hst hflag hstart hstop _
  refine ⟨hidle, t.takeTick.clearFlags, step_of_idle hidle, hst, State.clearFlags_anyFlag _, rfl, fun hfall => ?_⟩
  rw [State.nextInstr, State.decode_clkFall hfall]
  exact if_pos ⟨hst, State.clearFlags_anyFlag _⟩

/-! ### The lifetime of a flag -/

/-- With a flag set, a tick that runs neither START nor STOP runs IDLE. -/
theorem State.nextInstr_of_flag (hs : s.ReceivingIsClean) (hflag : s.anyFlag = true) (hstart : s.nextInstr ≠ .start)
    (hstop : s.nextInstr ≠ .stop) : s.nextInstr = .idle s.currentWord := by
  have hbyte : s.st ≠ .receivingByte := fun hst => by
    obtain ⟨h1, h2, h3, -⟩ := hs hst
    simp [State.anyFlag, h1, h2, h3] at hflag
  rcases s.decode_cases s.currentWord s.accept with ⟨-, d⟩ | ⟨-, d⟩ | ⟨g, -⟩ | ⟨g, -⟩ | ⟨g, -⟩ | ⟨-, -, -, -, -, d⟩
  · exact absurd d hstart
  · exact absurd d hstop
  · obtain ⟨-, ⟨h1, h2, h3⟩, -⟩ := (s.guardBitFirst_iff _).1 g
    simp [State.anyFlag, h1, h2, h3] at hflag
  · exact absurd ((s.guardBitMid_iff _).1 g).left hbyte
  · exact absurd ((s.guardBitLast_iff _).1 g).left hbyte
  · exact d

/-- Settles O43: the tick runs IDLE, by the first lemma for any flag and by `decode_after_stop` for `jStopped`. -/
theorem flagsEndAtTheFirstOtherTick : Obligations.FlagsEndAtTheFirstOtherTick := by
  unfold Obligations.FlagsEndAtTheFirstOtherTick
  refine fun s t hclean hs h => ⟨fun hflag hstart hstop => ?other, fun hflag => ?stopped⟩
  case other =>
    rw [eq_clearFlags_of_idle (State.nextInstr_of_flag hclean hflag hstart hstop) h]
    exact State.clearFlags_anyFlag _
  case stopped =>
    rw [eq_clearFlags_of_idle (State.decode_after_stop (hs hflag) hflag _ _) h]
    exact State.clearFlags_anyFlag _

/-- Settles O44: both ticks run IDLE, and the second finds no flag to clear. -/
theorem unchangedLinesAreIdempotent : Obligations.UnchangedLinesAreIdempotent := by
  unfold Obligations.UnchangedLinesAreIdempotent
  intro s hdata hclock
  have hedge := SampleWord.no_edge_of_unchanged hdata hclock
  refine ⟨_, step_of_idle (State.decode_of_no_edge hedge _), rfl, rfl, rfl, fun hword => ?_⟩
  exact step_of_idle (State.decode_of_no_edge (hword ▸ hedge) _)

/-! ### Leaving Stopped -/

theorem State.nextInstr_of_stopped (hst : s.st = .stopped) : s.nextInstr = .start ∨ s.nextInstr = .idle s.currentWord :=
  stoppedRunsOnlyStartOrIdle s _ _ hst

/-- Settles O45: in Stopped the choice is START or IDLE, and IDLE stays there. -/
theorem onlyStartLeavesStopped : Obligations.OnlyStartLeavesStopped := by
  unfold Obligations.OnlyStartLeavesStopped
  refine ⟨fun s t hst h hleft => ?leaves, fun s a hst => State.decode_stop_pattern_stopped hst a,
    fun s a hst => ⟨?begins, _, rfl, rfl, rfl⟩, fun s t u hop h h' => ?afterStop⟩
  case leaves =>
    obtain hop | hop := State.nextInstr_of_stopped hst
    · exact hop
    · exact absurd ((eq_clearFlags_of_idle hop h) ▸ hst) hleft
  case begins => exact State.decode_of_guardStart ((s.guardStart_iff _).2 ⟨rfl, by tauto⟩) a
  case afterStop =>
    obtain ⟨hst, hflag⟩ := stopped_of_stop hop h
    rw [eq_clearFlags_of_idle (State.decode_after_stop hst hflag _ _) h']
    exact ⟨hst, State.decode_of_guardStart
      ((t.takeTick.clearFlags.guardStart_iff _).2 ⟨rfl, .inl ⟨.inl hst, rfl⟩⟩)⟩

/-- Settles O46: ADDR_IGNORE calls no provider, so the step goes on, and in Stopped a word other than START's is IDLE. -/
theorem addressMismatchIsNoError : Obligations.AddressMismatchIsNoError := by
  unfold Obligations.AddressMismatchIsNoError
  intro s hlast h0 hother
  have hop : s.nextInstr = .bitLastAddrIgnore s.currentWord.nd s.currentWord.od :=
    (State.decode_of_guardBitLast hlast _).trans (State.completion_addrIgnore h0 hother)
  have hstep := step_of_not_stuck (callIsStuck_of_no_call (by rw [hop]; rfl))
  rw [hop] at hstep
  refine ⟨_, hstep, rfl, rfl, rfl, fun hword => ?_⟩
  rw [State.nextInstr, State.decode_stopped rfl]
  exact if_neg fun hcond => hword hcond.left

end Machine

end Sys2Proof
end

section
/-! PROOFS. The serial byte frame (30_encoding.md rule R85). Along a run inside one byte nothing but the captured bits
changes, so the completing tick finds six bits after the first, and the byte they spell with the last. -/

namespace Sys2Proof.Machine

variable {s s1 t u : State} {bits : List Bool}

/-- `t` is inside a byte that began in `s`, with `bits` captured so far: nothing that the byte's delivery reads has
changed, and nothing was emitted. -/
def State.InByteOf (t s : State) (bits : List Bool) : Prop :=
  t.st = .receivingByte ∧ t.byteCount = s.byteCount ∧ t.dir = s.dir ∧ t.events = s.events ∧ t.HasCaptured bits

theorem inByteOf_of_bitFirst {b o : Bool} (hop : s.nextInstr = .bitFirst b o) (h : step s = .next t) :
    t.InByteOf s [b] := by
  obtain ⟨-, hexec⟩ := (step_next_iff s t).1 h
  rw [hop] at hexec
  have hcaptured := hasCaptured_of_bitFirst hexec
  cases hexec
  exact ⟨rfl, rfl, rfl, rfl, hcaptured⟩

theorem State.InByteOf.idle {w : SampleWord} (ht : t.InByteOf s bits) (hop : t.nextInstr = .idle w)
    (h : step t = .next u) : u.InByteOf s bits := by
  rw [eq_clearFlags_of_idle hop h]
  exact ht

theorem State.InByteOf.mid {b o : Bool} (ht : t.InByteOf s bits) (hop : t.nextInstr = .bitMid b o)
    (h : step t = .next u) : u.InByteOf s (bits ++ [b]) := by
  obtain ⟨hst, hcount, hdir, hevents, hcaptured⟩ := ht
  have hn : bits.length ≤ 6 := by
    obtain ⟨hguard, -, -⟩ := (t.decode_eq_bitMid_iff _ _ b o).1 hop
    obtain ⟨-, -, hindex⟩ := (t.guardBitMid_iff _).1 hguard
    obtain ⟨hlen, -⟩ := hcaptured
    bv_omega
  obtain ⟨-, hexec⟩ := (step_next_iff t u).1 h
  rw [hop] at hexec
  have hnext : u.HasCaptured (bits ++ [b]) := State.HasCaptured.bitMid (s := t.takeTick) hcaptured hn hexec
  cases hexec
  exact ⟨hst, hcount, hdir, hevents, hnext⟩

/-- A run inside a byte appends its bits to those the byte began with. -/
theorem CaptureRun.inByteOf {before : List Bool} (hrun : CaptureRun s1 bits t) (hs : s1.InByteOf s before) :
    t.InByteOf s (before ++ bits) := by
  induction hrun with
  | refl => simpa using hs
  | idle _ hop h ih => exact ih.idle hop h
  | mid _ hop h ih => simpa using ih.mid hop h

/-- Where a byte completes, seven bits are captured, and the completion captures the eighth. -/
theorem State.InByteOf.last {b o : Bool} (ht : t.InByteOf s bits)
    (hop : t.nextInstr ∈
      [Instr.bitLastAddrAck b o, .bitLastAddrIgnore b o, .bitLastDataAck b o, .bitLastDataNack b o])
    (h : step t = .next u) : bits.length = 7 ∧ u.HasCaptured (bits ++ [b]) := by
  obtain ⟨-, -, -, -, hcaptured⟩ := ht
  obtain ⟨-, -, hindex⟩ := State.decode_mem_bitLast_iff.1 hop
  have hn : bits.length = 7 := by
    obtain ⟨hlen, -⟩ := hcaptured
    simpa [hindex] using hlen
  obtain ⟨-, hexec⟩ := (step_next_iff t u).1 h
  exact ⟨hn, State.HasCaptured.bitLast (s := t.takeTick) hcaptured hn hop hexec⟩

/-- The byte events of a tick that completes a byte. -/
theorem bytePorts_of_bitLast {b o : Bool}
    (hop : t.nextInstr ∈
      [Instr.bitLastAddrAck b o, .bitLastAddrIgnore b o, .bitLastDataAck b o, .bitLastDataNack b o])
    (h : step t = .next u) :
    (newEvents t u).filterMap Event.bytePort = if t.byteCount = 0#8 then [] else [(t.dir.toBit, u.acc)] := by
  obtain ⟨hword, hst, hindex⟩ := State.decode_mem_bitLast_iff.1 hop
  have hlast : t.guardBitLast t.currentWord = true :=
    (t.guardBitLast_iff _).2 ⟨hst, hword ▸ SampleWord.clkRise_pack b o, hindex⟩
  obtain ⟨-, hexec⟩ := (step_next_iff t u).1 h
  obtain ⟨hacc, -⟩ := exec_bitLast_captures hop hexec
  rw [payloadBytesDeliveredOnce t u h, hlast, hword, SampleWord.pack_nd, hacc, Direction.toBit_eq_beq]
  by_cases h0 : t.byteCount = 0#8 <;> simp [h0]

/-- Settles O54: the run is inside one byte throughout, and its last tick captures and delivers. -/
theorem serialFrameSpellsTheByte : Obligations.SerialFrameSpellsTheByte := by
  unfold Obligations.SerialFrameSpellsTheByte
  intro s s1 t u b0 o0 b7 o7 bits hfirst h hrun hop h'
  have ht : t.InByteOf s (b0 :: bits) := hrun.inByteOf (inByteOf_of_bitFirst hfirst h)
  obtain ⟨hn, -, hbits⟩ := ht.last hop h'
  have hlen : bits.length = 6 := Nat.succ.inj hn
  have hacc := hbits.eq_ofNat_bitsValue (by simp [hlen])
  obtain ⟨-, hcount, hdir, hevents, -⟩ := ht
  refine ⟨hlen, hacc, ?delivered⟩
  have hnew : newEvents s u = newEvents t u := by rw [newEvents, newEvents, hevents]
  rw [hnew, bytePorts_of_bitLast hop h', hcount, hdir, hacc]

end Sys2Proof.Machine
end
